-- ==== Sys2Proof/Word.lean ====
section
/-! DEFINITION. The words of the block: bytes, 16-bit values and the 64-bit command word (00_scope.md R6, R7; 30_encoding.md R70). -/

namespace Sys2Proof

/-- A canvas byte, a producer byte, a bus byte, a Configuration or Lighting byte: 8 bits (00_scope.md R6). -/
abbrev Byte := BitVec 8

/-- A 16-bit command field or response value (30_encoding.md R70, R76). -/
abbrev Half := BitVec 16

/-- The 64-bit command word (30_encoding.md R70). -/
abbrev CmdWord := BitVec 64

/-- A 7-bit bus address (00_scope.md R6). -/
abbrev BusAddr := BitVec 7

end Sys2Proof
end

