-- ==== Sys2Proof/Config.lean ====
section
/-! DEFINITION. What an implementation fixes (the parameters of 00_scope.md R5) and the free values
(93_implementation_defined.md I1 and I3). -/

namespace Sys2Proof

/-- Which out-of-bounds status is reported when both coordinates are out of bounds
(00_scope.md R5 `OOB_ORDER`, 40_canvas.md R100). -/
inductive OobOrder
  | xFirst
  | yFirst
deriving DecidableEq, Repr

/-- One of the two controllers (00_scope.md section 6, "Device d"). -/
inductive Dev
  | d0
  | d1
deriving DecidableEq, Repr

/-- One value for each of the two devices. -/
structure PerDev (α : Type) where
  d0 : α
  d1 : α
deriving DecidableEq, Repr

/-- What the bus agent answers to one write (20_memory.md R56). -/
inductive BusAnswer
  | ok
  | err (e : Byte)
deriving DecidableEq, Repr, Inhabited

/-- The implementation parameters of 00_scope.md R5. `capW` and `capH` are also the read-only registers
CAPW and CAPH (10_state.md R27), `devAddr` the read-only registers DRV[d].ADDR (10_state.md R33).
`alphaUnset = none` is the value OPEN of `ALPHA_UNSET_THRESHOLD`. Log 1. -/
structure Params where
  capW : Nat
  capH : Nat
  viewSlots : Nat
  viewDepth : Nat
  alphaUnset : Option Byte
  oobOrder : OobOrder
  devAddr : PerDev BusAddr
  screenK : PerDev Int
deriving DecidableEq, Repr

/-- The reference values of 00_scope.md R5. -/
def Params.reference : Params where
  capW := 32
  capH := 8
  viewSlots := 4
  viewDepth := 4
  alphaUnset := none
  oobOrder := .xFirst
  devAddr := { d0 := 0x63, d1 := 0x61 }
  screenK := { d0 := 1, d1 := 3 }

/-- A bus address the parameters may give a device: 0x60 to 0x63 (00_scope.md R5, 30_encoding.md R90). -/
abbrev legalAddr (a : BusAddr) : Prop := 0x60 ≤ a.toNat ∧ a.toNat ≤ 0x63

/-- The legal values of the parameters (00_scope.md R5). Every value of `alphaUnset`, `oobOrder` and
`screenK` is legal. -/
abbrev Params.legal (p : Params) : Prop :=
  (p.capW % 8 = 0 ∧ 8 ≤ p.capW ∧ p.capW ≤ 32760) ∧ (1 ≤ p.capH ∧ p.capH ≤ 32767) ∧
  (1 ≤ p.viewSlots ∧ p.viewSlots ≤ 16) ∧ (1 ≤ p.viewDepth ∧ p.viewDepth ≤ 255) ∧
  legalAddr p.devAddr.d0 ∧ legalAddr p.devAddr.d1

namespace Config

/-- The answer the bus agent gives where State gives none: a free draw per write, under no law
(20_memory.md R56, 93_implementation_defined.md I1). Log 5. -/
opaque freeAnswer : Nat → BusAnswer

/-- The pixel CV.DRAW writes when no threshold is set and `ALPHA_UNSET_THRESHOLD` is OPEN: a free draw
per command (40_canvas.md R115, 93_implementation_defined.md I3). Log 7. -/
opaque freePixel : Nat → Bool

/-- What an unlisted byte of the canvas store reads as: its reset contents (70_reset_and_hazards.md R241). -/
def unlistedByte : Byte := 0x00

/-- Rows of a matrix target (43_target_screen.md R190, `TGT_H`). -/
def targetRows : Nat := 8

end Config

end Sys2Proof
end

