-- ==== Sys2Proof/Machine/State.lean ====
section
/-! DEFINITION. The machine's state, its stops, and reset (10_state.md; 70_reset_and_hazards.md R241). -/

namespace Sys2Proof.Machine

/-- One stage of a view slot (10_state.md R31): FLIP, OFFSET(dx, dy) with dx in bytes and dy in rows, or ROT90. -/
inductive Stage
  | flip
  | offset (dx dy : Int)
  | rot90
deriving DecidableEq, Repr

/-- The driver's cached Configuration and Lighting bytes (10_state.md R34, R35). -/
structure Driver where
  cfg : Byte
  lit : Byte
deriving DecidableEq, Repr

/-- The canvas store: address and byte pairs in canonical form (log 2). -/
abbrev Memory := List Host.Cell

/-- The statuses of 60_exceptions.md R211. -/
inductive Status
  | ok
  | widthCap
  | heightCap
  | xOob
  | yOob
  | unsupported
  | transport
  | payloadRange
  | depthFull
  | badUnit
  | illegal
deriving DecidableEq, Repr

/-- The response that ends a command (30_encoding.md R75). -/
structure Response where
  status : Status
  data : List Byte
deriving DecidableEq, Repr

/-- One bus transaction and its answer (20_memory.md R56). -/
structure BusWrite where
  addr : BusAddr
  frame : List Byte
  answer : BusAnswer
deriving DecidableEq, Repr

/-- What the host does next (10_state.md R20): it sends a command word and puts payload bytes on the payload
stream (30_encoding.md R70, R74), or it asserts the reset input (70_reset_and_hazards.md R240). Log 3, log 13. -/
inductive HostEvent
  | command (word : CmdWord) (payload : List Byte)
  | reset
deriving DecidableEq, Repr

/-- The state of the machine.

The spec's own: `cv`, `width`, `height`, `alphaSet`, `alphaThr`, `slots`, `drv`, `needsReinit` (10_state.md R38),
`n` (R23), `payIn` and `response` (70_reset_and_hazards.md R241, the payload and response streams).
`par` holds the parameters, among them the read-only registers CAPW, CAPH and DRV[d].ADDR (log 1).
The model's own: `hostIn`, `busIn`, `busStall`, `busOut`, `draws` (log 3, 5, 6, 12, 14). -/
structure State where
  /-- The implementation parameters; no step changes them (00_scope.md R5). -/
  par : Params
  /-- CV, the canvas store (10_state.md R24). -/
  cv : Memory
  /-- WIDTH (10_state.md R25). -/
  width : Half
  /-- HEIGHT (10_state.md R26). -/
  height : Half
  /-- ALPHA_SET (10_state.md R29). -/
  alphaSet : Bool
  /-- ALPHA_THR (10_state.md R29). -/
  alphaThr : Byte
  /-- The view-slot file: slot s is its list of stages, stage 1 first, and DEPTH[s] its length (10_state.md R30). -/
  slots : List (List Stage)
  /-- DRV[d].CFG and DRV[d].LIT (10_state.md R34, R35). -/
  drv : PerDev Driver
  /-- NEEDS_REINIT[d] (10_state.md R36). -/
  needsReinit : PerDev Bool
  /-- The command index (10_state.md R23). -/
  n : Nat
  /-- The payload stream: bytes delivered and not yet consumed (30_encoding.md R74). -/
  payIn : List Byte
  /-- The last response sent, none since reset (30_encoding.md R75). -/
  response : Option Response
  /-- The host events still to come, first one first. -/
  hostIn : List HostEvent
  /-- The answers the bus agent gives to the next writes; a write beyond them gets a free answer. -/
  busIn : List BusAnswer
  /-- The number (counted from 0 over `busOut`) of the bus write that is never answered, if there is one. -/
  busStall : Option Nat
  /-- Every bus write made, oldest first. -/
  busOut : List BusWrite
  /-- How many free values have been drawn. -/
  draws : Nat
deriving DecidableEq, Repr

/-- Why the machine has no next state: the stuck states of 60_exceptions.md R216. Each is raised where the
block waits with no bound, and each is safe (the model stops where the hardware still waits). -/
inductive Fault
  /-- Raised by the step: the host has sent no command word, and the block waits for one (R216). Safe. -/
  | waitCommand
  /-- Raised by CV.ROWW, DRV.M1ROWS, DRV.M2ROWS and illegal words with their opcodes: the payload stream holds
  fewer bytes than the command takes (R216, 70_reset_and_hazards.md R248 (1), 93 I10). Safe. -/
  | waitPayload
  /-- Raised by every command with a bus write: the bus agent never answers one of its writes (R216,
  70_reset_and_hazards.md R248 (2), 93 I2). Safe. -/
  | waitBus
deriving DecidableEq, Repr

/-- Refusals: none is answered, since "Nothing in the block is refused" (60_exceptions.md R226). -/
inductive Refusal
  /-- An instruction that has no meaning yet, by its mnemonic. Raised by no arm of exec. Safe. -/
  | notModelled (mnemonic : String)
deriving DecidableEq, Repr

/-- The state after reset of a block with the given parameters (70_reset_and_hazards.md R241). The model's own
fields are empty (log 14). -/
def State.resetWith (p : Params) : State where
  par := p
  cv := []
  width := 0
  height := 0
  alphaSet := false
  alphaThr := 0x00
  slots := List.replicate p.viewSlots []
  drv := { d0 := { cfg := 0x00, lit := 0x00 }, d1 := { cfg := 0x00, lit := 0x00 } }
  needsReinit := { d0 := true, d1 := true }
  n := 0
  payIn := []
  response := none
  hostIn := []
  busIn := []
  busStall := none
  busOut := []
  draws := 0

/-- The state after reset, with the reference parameters of 00_scope.md R5 (log 1). -/
def State.reset : State := State.resetWith Params.reference

end Sys2Proof.Machine
end

