-- ==== Sys2Proof/Machine/Flags.lean ====
section
/-! DEFINITION. The block's outcome values and flags: the status codes (60_exceptions.md R211) and the recovery flags'
computation (10_state.md R36, 43_target_screen.md R194). The block has no condition codes (10_state.md R37). -/

namespace Sys2Proof.Machine

/-- The status byte of a status (60_exceptions.md R211). -/
def Status.code : Status → Byte
  | .ok => 0x00
  | .widthCap => 0x01
  | .heightCap => 0x02
  | .xOob => 0x03
  | .yOob => 0x04
  | .unsupported => 0x05
  | .transport => 0x06
  | .payloadRange => 0x07
  | .depthFull => 0x08
  | .badUnit => 0x09
  | .illegal => 0x0A

/-- The bytes of a response: the status byte, then the data (30_encoding.md R75). -/
def Response.bytes (r : Response) : List Byte := r.status.code :: r.data

/-- Whether an answer is `err` (43_target_screen.md R194, "is err"). -/
def isErr : BusAnswer → Bool
  | .ok => false
  | .err _ => true

/-- A device's recovery flag after its frame: the OR of the outcomes of its three writes
(10_state.md R36, 43_target_screen.md R194). -/
def frameFlag (e1 e2 e3 : BusAnswer) : Bool := isErr e1 || isErr e2 || isErr e3

/-- The data byte of SCR.REINIT: flag 0 in bit 0, flag 1 in bit 1 (43_target_screen.md R196). -/
def reinitByte (f : PerDev Bool) : Byte :=
  (BitVec.ofBool f.d0).setWidth 8 ||| ((BitVec.ofBool f.d1).setWidth 8 <<< 1)

/-- A 1-bit value as the response byte 0x00 or 0x01. -/
def flagByte (b : Bool) : Byte := (BitVec.ofBool b).setWidth 8

end Sys2Proof.Machine
end

