-- ==== Sys2Proof/Syntax.lean ====
section
/-! DEFINITION. The command set: one constructor for each row of spec/opcode_table.json (30_encoding.md R72), each operand
already an integer of the kind 30_encoding.md R71 gives it. -/

namespace Sys2Proof

/-- The half of a controller a target writes, bit K[0] (43_target_screen.md R190). -/
inductive Half8x8
  | primary
  | secondary
deriving DecidableEq, Repr

/-- The 34 commands. `Int` operands are `sext_16` fields, `Nat` operands are `zext_16` fields or the 4-bit
unit `U`, `Byte` operands are C[7:0] or C[15:8] (30_encoding.md R71). -/
inductive Instr
  | cvNew (w h : Nat)
  | cvWidth
  | cvHeight
  | cvCapw
  | cvCaph
  | cvRow (y : Int)
  | cvRoww (y : Int)
  | cvByte (bx y : Int)
  | cvBytew (bx y : Int) (v : Byte)
  | cvBit (x y : Int)
  | cvBitw (x y : Int) (v : Bool)
  | cvAlpha
  | cvAlphaw (present : Bool) (thr : Byte)
  | cvDraw (x y : Int) (alpha : Byte)
  | vwClear (slot : Nat)
  | vwFlip (slot : Nat)
  | vwOffset (slot : Nat) (dx dy : Int)
  | vwRot90 (slot : Nat)
  | vwBitslen (slot : Nat)
  | vwRead (slot : Nat) (row start stop : Int)
  | vwReadrev (slot : Nat) (row start stop : Int)
  | bitidx (b : Int)
  | drvPwm (d : Nat) (value : Byte)
  | drvM1rows (d startRow count : Nat)
  | drvM2rows (d startRow count : Nat)
  | drvUpdate (d : Nat)
  | drvReset (d : Nat)
  | drvModcfg (d : Nat) (mask value : Byte)
  | drvModlit (d : Nat) (mask value : Byte)
  | drvCfg (d : Nat)
  | drvLit (d : Nat)
  | tgtRender (d : Nat) (half : Half8x8) (slot : Nat)
  | scrRender
  | scrReinit
deriving DecidableEq, Repr

end Sys2Proof
end

