-- ==== Sys2Proof/Machine/Operands.lean ====
section
/-! DEFINITION. Operand forms: integer helpers (00_scope.md R8), bit positions (R7, 20_memory.md R52), units (30_encoding.md R71),
16-bit response values (R76) and the byte-and-bit decomposition (41_views.md R144). -/

namespace Sys2Proof.Machine

/-- `ceil8(w) = fdiv(w + 7, 8)` (00_scope.md R8), for the widths the block holds. -/
def ceil8 (w : Nat) : Nat := (w + 7) / 8

/-- The integers `a, a+1, ..., b-1`; none when `b <= a` (00_scope.md R9). -/
def intRange (a b : Int) : List Int := (List.range (b - a).toNat).map (fun (k : Nat) => a + (k : Int))

/-- `bitrev8`: the standard 3-step swap (41_views.md R131). -/
def bitrev8 (v : Byte) : Byte :=
  let v := ((v &&& 0xF0#8) >>> 4) ||| ((v &&& 0x0F#8) <<< 4)
  let v := ((v &&& 0xCC#8) >>> 2) ||| ((v &&& 0x33#8) <<< 2)
  ((v &&& 0xAA#8) >>> 1) ||| ((v &&& 0x55#8) <<< 1)

/-- The mask of the pixel at position `x mod 8` of its byte, counted from the left: `0x80 >> (x mod 8)`
(00_scope.md R7, 20_memory.md R52). -/
def pixelMask (x : Int) : Byte := 0x80#8 >>> (x % 8).toNat

/-- A byte with the pixels of mask `m` set or cleared (40_canvas.md R112). -/
def putMask (byte m : Byte) (v : Bool) : Byte := if v then byte ||| m else byte &&& ~~~m

/-- The byte-and-bit decomposition of a signed bit index, by the source's case rule with division truncating
toward zero (41_views.md R144). -/
def byteAndBit (b : Int) : Int × Int :=
  if 0 ≤ b then (Int.tdiv b 8, b % 8)
  else if (-b) % 8 = 0 then (Int.tdiv b 8, 0)
  else (Int.tdiv b 8 - 1, 8 - (-b) % 8)

/-- A 16-bit response value, most significant byte first (30_encoding.md R76). -/
def be16 (v : Half) : List Byte := [v.extractLsb' 8 8, v.extractLsb' 0 8]

/-- The device a unit operand names: 0 or 1, none other (30_encoding.md R71, 60_exceptions.md R213). -/
def devOf : Nat → Option Dev
  | 0 => some .d0
  | 1 => some .d1
  | _ => none

/-- A device's entry of a pair. -/
def pick {α : Type} (p : PerDev α) : Dev → α
  | .d0 => p.d0
  | .d1 => p.d1

/-- A pair with one device's entry replaced. -/
def put {α : Type} (p : PerDev α) (d : Dev) (v : α) : PerDev α :=
  match d with
  | .d0 => { p with d0 := v }
  | .d1 => { p with d1 := v }

/-- `f(c) = (c AND NOT mask) OR (value AND mask)` (42_driver.md R166, R167). -/
def masked (c mask value : Byte) : Byte := (c &&& ~~~mask) ||| (value &&& mask)

end Sys2Proof.Machine
end

