-- ==== Sys2Proof/Machine/Ops.lean ====
section
/-! DEFINITION. The named operations over the canvas store, the registers, the payload stream, the response and the bus:
MemRead and MemWrite (20_memory.md R50), finish and raise (00_scope.md R9, 60_exceptions.md R210), the prologue's checks
(60_exceptions.md R213), the bounds checks (40_canvas.md R100) and the bus write (20_memory.md R56, 42_driver.md R160). -/

namespace Sys2Proof.Machine

/-- What executing a command gives. -/
abbrev Exec := Host.Outcome State Fault Refusal

/-! ### The canvas store as a canonical list -/

/-- The byte at an address; an unlisted one reads as 0x00, the reset contents (70_reset_and_hazards.md R241). -/
def Memory.read : Memory → Nat → Byte
  | [], _ => Config.unlistedByte
  | (k, v) :: rest, a => if k = a then v else Memory.read rest a

/-- Put a byte in front of a list, unless it is what an unlisted address reads as. -/
def Memory.cons (a : Nat) (v : Byte) (m : Memory) : Memory :=
  if v = Config.unlistedByte then m else (a, v) :: m

/-- Write a byte, keeping the canonical form. -/
def Memory.write : Memory → Nat → Byte → Memory
  | [], a, v => Memory.cons a v []
  | (k, x) :: rest, a, v =>
    if a < k then Memory.cons a v ((k, x) :: rest)
    else if a = k then Memory.cons a v rest
    else (k, x) :: Memory.write rest a v

/-- Addresses strictly rising. -/
def Memory.rising : Memory → Bool
  | [] => true
  | [_] => true
  | (k, _) :: (k', x) :: rest => decide (k < k') && Memory.rising ((k', x) :: rest)

/-- The canonical form: addresses strictly rising, and no entry equal to what an unlisted address reads as. -/
def Memory.wf (m : Memory) : Bool := Memory.rising m && m.all (fun c => c.2 != Config.unlistedByte)

/-! ### The canvas (10_state.md R24 to R28; 20_memory.md R50 to R53) -/

/-- Bytes in one row of the store: CAP_W / 8 (10_state.md R24). -/
def State.stride (s : State) : Nat := s.par.capW / 8

/-- `L = ceil8(WIDTH)`, the bytes of a live row (10_state.md R28). -/
def State.rowLen (s : State) : Nat := ceil8 s.width.toNat

/-- The store address of byte column `j` of row `y`: storage is contiguous (10_state.md R24). Log 2. -/
def State.addr (s : State) (y j : Int) : Nat := (y * (s.stride : Int) + j).toNat

/-- `MemRead((y, j), 1)` (20_memory.md R50). -/
def State.memRead (s : State) (y j : Int) : Byte := s.cv.read (s.addr y j)

/-- `MemWrite((y, j), 1, v)` (20_memory.md R50). -/
def State.memWrite (s : State) (y j : Int) (v : Byte) : State := { s with cv := s.cv.write (s.addr y j) v }

/-- Row `y` is live (20_memory.md R51). -/
abbrev State.liveRow (s : State) (y : Int) : Prop := 0 ≤ y ∧ y < (s.height.toNat : Int)

/-- Byte column `j` is live (20_memory.md R51). -/
abbrev State.liveByte (s : State) (j : Int) : Prop := 0 ≤ j ∧ j < (s.rowLen : Int)

/-- Pixel column `x` is live (20_memory.md R51). -/
abbrev State.livePixel (s : State) (x : Int) : Prop := 0 ≤ x ∧ x < (s.width.toNat : Int)

/-- The whole live row `y`, bytes 0 to L - 1 (40_canvas.md R107). -/
def State.readRow (s : State) (y : Int) : List Byte := (intRange 0 s.rowLen).map (s.memRead y)

/-- Write bytes from byte column `j` of row `y` on, in increasing column (40_canvas.md R108). -/
def State.writeBytes (s : State) (y j : Int) : List Byte → State
  | [] => s
  | v :: rest => (s.memWrite y j v).writeBytes y (j + 1) rest

/-- The pixel in column `x` of row `y`: bit `7 - (x mod 8)` of byte `x >> 3` (20_memory.md R52). -/
def State.readPixel (s : State) (x y : Int) : Byte := (s.memRead y (x / 8) >>> (7 - (x % 8).toNat)) &&& 1

/-- Write one pixel, the other 7 bits of its byte unchanged (40_canvas.md R112). -/
def State.writePixel (s : State) (x y : Int) (v : Bool) : State :=
  s.memWrite y (x / 8) (putMask (s.memRead y (x / 8)) (pixelMask x) v)

/-! ### Ending a command (00_scope.md R9; 60_exceptions.md R210 to R214) -/

/-- The response is sent and the command index counts, whatever the status (10_state.md R23, 60_exceptions.md R213). -/
def State.respond (s : State) (st : Status) (data : List Byte) : State :=
  { s with response := some { status := st, data := data }, n := s.n + 1 }

/-- `finish`: status OK and the data emitted (00_scope.md R9). -/
def finish (data : List Byte) (s : State) : Exec := .next (s.respond .ok data)

/-- `raise Status(c)`: the command ends with status `c`, no data and no other change (60_exceptions.md R210, R212).
This is all there is to taking an exception: no handler, no vector, nothing saved (R218). -/
def raise (c : Status) (s : State) : Exec := .next (s.respond c [])

/-- Run the rest of a command, unless a check before it raised. -/
def orRaise (c : Option Status) (s : State) (k : Exec) : Exec :=
  match c with
  | some st => raise st s
  | none => k

/-! ### The prologue (60_exceptions.md R213) -/

/-- Take `len` bytes from the payload stream and run the rest of the command on them; wait when fewer are there
(30_encoding.md R74, 60_exceptions.md R216). -/
def withPayload (len : Nat) (s : State) (k : List Byte → State → Exec) : Exec :=
  if s.payIn.length < len then .fault .waitPayload
  else k (s.payIn.take len) { s with payIn := s.payIn.drop len }

/-- Run the rest of a command on the device its unit operand names, or raise BAD_UNIT. -/
def withDev (u : Nat) (s : State) (k : Dev → Exec) : Exec :=
  match devOf u with
  | some d => k d
  | none => raise .badUnit s

/-- Run the rest of a command when its slot operand names a slot, or raise BAD_UNIT. -/
def withSlot (slot : Nat) (s : State) (k : Exec) : Exec :=
  if slot < s.par.viewSlots then k else raise .badUnit s

/-! ### Bounds checks (40_canvas.md R100) -/

/-- `CheckRow(y)`. -/
def checkRow (s : State) (y : Int) : Option Status := if s.liveRow y then none else some .yOob

/-- `CheckCol(x, limit, y)`, in the order of `OOB_ORDER`. -/
def checkCol (s : State) (x : Int) (limit : Nat) (y : Int) : Option Status :=
  let xo := !decide (0 ≤ x ∧ x < (limit : Int))
  let yo := !decide (s.liveRow y)
  match s.par.oobOrder with
  | .xFirst => if xo then some .xOob else if yo then some .yOob else none
  | .yFirst => if yo then some .yOob else if xo then some .xOob else none

/-! ### View slots (10_state.md R30) -/

/-- The chain of a slot: `STAGE[s][1 .. DEPTH[s]]` (41_views.md R130). -/
def State.chain (s : State) (slot : Nat) : List Stage := s.slots.getD slot []

/-- Replace the chain of a slot. -/
def State.setChain (s : State) (slot : Nat) (c : List Stage) : State := { s with slots := s.slots.set slot c }

/-- Append a stage to a slot, or DEPTH_FULL with the slot unchanged (41_views.md R146 to R148). -/
def appendStage (slot : Nat) (t : Stage) (s : State) : Exec :=
  orRaise (if (s.chain slot).length < s.par.viewDepth then none else some .depthFull) s
    (finish [] (s.setChain slot (s.chain slot ++ [t])))

/-! ### Driver registers (10_state.md R33 to R36) -/

/-- Set DRV[d].CFG. -/
def State.setCfg (s : State) (d : Dev) (v : Byte) : State :=
  { s with drv := put s.drv d { pick s.drv d with cfg := v } }

/-- Set DRV[d].LIT. -/
def State.setLit (s : State) (d : Dev) (v : Byte) : State :=
  { s with drv := put s.drv d { pick s.drv d with lit := v } }

/-- Set NEEDS_REINIT[d]. -/
def State.setReinit (s : State) (d : Dev) (v : Bool) : State :=
  { s with needsReinit := put s.needsReinit d v }

/-! ### The bus (20_memory.md R55, R56; 42_driver.md R160) -/

/-- The answer the next bus write gets: the bus agent's, where State gives it, else a free one (log 5). -/
def State.nextAnswer (s : State) : BusAnswer :=
  match s.busIn with
  | a :: _ => a
  | [] => Config.freeAnswer s.draws

/-- One bus write and its answer: the write joins the trace, and the answer is used up (20_memory.md R56). -/
def State.busWrite (s : State) (d : Dev) (frame : List Byte) : State :=
  { s with
    busOut := s.busOut ++ [{ addr := pick s.par.devAddr d, frame := frame, answer := s.nextAnswer }]
    busIn := s.busIn.tail
    draws := if s.busIn = [] then s.draws + 1 else s.draws }

/-- The command that led from `s` to `r` ends, unless a bus write it made is the one that is never answered: then
the block waits for the bus agent (60_exceptions.md R216). Log 6. -/
def settle (s r : State) : Exec :=
  match s.busStall with
  | none => .next r
  | some k => if s.busOut.length ≤ k ∧ k < r.busOut.length then .fault .waitBus else .next r

/-- `DrvWrite(d, frame)` as a command's last step: on `ok` the state changes by `onOk` and the command finishes, on
`err(e)` it ends with TRANSPORT and the one byte `e` (42_driver.md R160, 60_exceptions.md R212). -/
def drvWrite (d : Dev) (frame : List Byte) (onOk : State → State) (s : State) : Exec :=
  settle s (match s.nextAnswer with
    | .ok => (onOk (s.busWrite d frame)).respond .ok []
    | .err e => (s.busWrite d frame).respond .transport [e])

end Sys2Proof.Machine
end

