-- ==== Sys2Proof/Machine/Canvas.lean ====
section
/-! DEFINITION. The canvas commands (40_canvas.md R102 to R115). -/

namespace Sys2Proof.Machine

/-- CV.NEW (40_canvas.md R102): width checked first; on success the whole store is zeroed and the threshold cleared. -/
def execCvNew (w h : Nat) (s : State) : Exec :=
  orRaise (if s.par.capW < w then some .widthCap else if s.par.capH < h then some .heightCap else none) s
    (finish [] { s with
      cv := [], width := BitVec.ofNat 16 w, height := BitVec.ofNat 16 h, alphaSet := false, alphaThr := 0x00 })

/-- CV.WIDTH (40_canvas.md R103). -/
def execCvWidth (s : State) : Exec := finish (be16 s.width) s

/-- CV.HEIGHT (40_canvas.md R104). -/
def execCvHeight (s : State) : Exec := finish (be16 s.height) s

/-- CV.CAPW (40_canvas.md R105). -/
def execCvCapw (s : State) : Exec := finish (be16 (BitVec.ofNat 16 s.par.capW)) s

/-- CV.CAPH (40_canvas.md R106). -/
def execCvCaph (s : State) : Exec := finish (be16 (BitVec.ofNat 16 s.par.capH)) s

/-- CV.ROW (40_canvas.md R107). -/
def execCvRow (y : Int) (s : State) : Exec := orRaise (checkRow s y) s (finish (s.readRow y) s)

/-- CV.ROWW (40_canvas.md R108): the L payload bytes are consumed whatever the status (30_encoding.md R74). -/
def execCvRoww (y : Int) (s : State) : Exec :=
  withPayload s.rowLen s (fun p s => orRaise (checkRow s y) s (finish [] (s.writeBytes y 0 p)))

/-- CV.BYTE (40_canvas.md R109). -/
def execCvByte (bx y : Int) (s : State) : Exec := orRaise (checkCol s bx s.rowLen y) s (finish [s.memRead y bx] s)

/-- CV.BYTEW (40_canvas.md R110). -/
def execCvBytew (bx y : Int) (v : Byte) (s : State) : Exec :=
  orRaise (checkCol s bx s.rowLen y) s (finish [] (s.memWrite y bx v))

/-- CV.BIT (40_canvas.md R111). -/
def execCvBit (x y : Int) (s : State) : Exec :=
  orRaise (checkCol s x s.width.toNat y) s (finish [s.readPixel x y] s)

/-- CV.BITW (40_canvas.md R112). -/
def execCvBitw (x y : Int) (v : Bool) (s : State) : Exec :=
  orRaise (checkCol s x s.width.toNat y) s (finish [] (s.writePixel x y v))

/-- CV.ALPHA (40_canvas.md R113). -/
def execCvAlpha (s : State) : Exec := finish [flagByte s.alphaSet, s.alphaThr] s

/-- CV.ALPHAW (40_canvas.md R114). -/
def execCvAlphaw (present : Bool) (thr : Byte) (s : State) : Exec :=
  finish [] { s with alphaSet := present, alphaThr := if present then thr else 0x00 }

/-- The threshold CV.DRAW compares with; none while `ALPHA_UNSET_THRESHOLD` is OPEN and none is set
(40_canvas.md R115). -/
def State.threshold (s : State) : Option Byte := if s.alphaSet then some s.alphaThr else s.par.alphaUnset

/-- CV.DRAW (40_canvas.md R115): an out-of-canvas pixel is dropped with OK; the written bit is free when no
threshold is known (93_implementation_defined.md I3, log 7). -/
def execCvDraw (x y : Int) (alpha : Byte) (s : State) : Exec :=
  if s.livePixel x ∧ s.liveRow y then
    match s.threshold with
    | some t => finish [] (s.writePixel x y (decide (t.toNat < alpha.toNat)))
    | none => finish [] { s.writePixel x y (Config.freePixel s.draws) with draws := s.draws + 1 }
  else finish [] s

end Sys2Proof.Machine
end

