-- ==== Sys2Proof/Machine/Wire.lean ====
section
/-! DEFINITION. The controller wire format: register addresses, byte fields and frames (30_encoding.md R83 to R91). -/

namespace Sys2Proof.Machine

/-- The controller registers the block writes (30_encoding.md R84). -/
def regConfig : Byte := 0x00
def regMatrix1 : Byte := 0x01
def regUpdate : Byte := 0x0C
def regLighting : Byte := 0x0D
def regMatrix2 : Byte := 0x0E
def regPwm : Byte := 0x19
def regReset : Byte := 0xFF

/-- Registers of one matrix window, 0x01 to 0x0B and 0x0E to 0x18 (30_encoding.md R84). -/
def windowSize : Nat := 11

/-- Field masks of the Configuration byte (30_encoding.md R85). -/
def maskShutdown : Byte := 0x80
def maskDisplayMode : Byte := 0x18
def maskAudio : Byte := 0x04
def maskMatrixMode : Byte := 0x03

/-- Field masks of the Lighting byte (30_encoding.md R86). -/
def maskCurrent : Byte := 0x0F
def maskAudioGain : Byte := 0x70

/-- DisplayMode Both (30_encoding.md R85). -/
def displayBoth : Byte := 0x18

/-- The current code of 20 mA (30_encoding.md R87). -/
def current20mA : Byte := 0x0B

/-- The current a code selects, in mA; none for 0b1111, whose current the spec does not settle
(30_encoding.md R87, 90_conflicts.md C2). The block never uses it. -/
def currentMilliamps (code : BitVec 4) : Option Nat :=
  if code = 0b1111 then none
  else if 8 ≤ code.toNat then some (5 * (code.toNat - 7)) else some (40 + 5 * code.toNat)

/-- The audio gain a field value selects, in dB (30_encoding.md R88). The block never uses it. -/
def gainDecibels (g : BitVec 3) : Int := if g = 7 then -6 else 3 * (g.toNat : Int)

/-- The byte sent to the PWM register: bit 7 always set (30_encoding.md R89). -/
def pwmByte (value : Byte) : Byte := (value &&& 0x7F) ||| 0x80

/-- The base register of a half's matrix window: Primary writes matrix 1, Secondary matrix 2
(43_target_screen.md R190). -/
def baseOf : Half8x8 → Byte
  | .primary => regMatrix1
  | .secondary => regMatrix2

/-- The frames of 30_encoding.md R91: register byte first, then the data (R83). -/
def framePwm (value : Byte) : List Byte := [regPwm, pwmByte value]
def frameWindow (base : Byte) (startRow : Nat) (p : List Byte) : List Byte := (base + BitVec.ofNat 8 startRow) :: p
def frameUpdate : List Byte := [regUpdate, 0x00]
def frameReset : List Byte := [regReset, 0x00]
def frameConfig (cfg : Byte) : List Byte := [regConfig, cfg]
def frameLighting (lit : Byte) : List Byte := [regLighting, lit]

end Sys2Proof.Machine
end

