-- ==== Sys2Proof/Machine/Driver.lean ====
section
/-! DEFINITION. The matrix driver commands (42_driver.md R160 to R169). -/

namespace Sys2Proof.Machine

/-- DRV.PWM (42_driver.md R161). -/
def execDrvPwm (d : Nat) (value : Byte) (s : State) : Exec :=
  withDev d s (fun dev => drvWrite dev (framePwm value) id s)

/-- A window write: `count` payload bytes, consumed whatever the status, from register `base + startRow` on,
refused when they do not fit the window (42_driver.md R162, R163). -/
def windowWrite (base : Byte) (d startRow count : Nat) (s : State) : Exec :=
  withPayload count s (fun p s =>
    withDev d s (fun dev =>
      orRaise (if windowSize - 1 < startRow ∨ windowSize < startRow + count then some .payloadRange else none) s
        (drvWrite dev (frameWindow base startRow p) id s)))

/-- DRV.M1ROWS (42_driver.md R162). -/
def execDrvM1rows (d startRow count : Nat) (s : State) : Exec := windowWrite regMatrix1 d startRow count s

/-- DRV.M2ROWS (42_driver.md R163). -/
def execDrvM2rows (d startRow count : Nat) (s : State) : Exec := windowWrite regMatrix2 d startRow count s

/-- DRV.UPDATE (42_driver.md R164). -/
def execDrvUpdate (d : Nat) (s : State) : Exec := withDev d s (fun dev => drvWrite dev frameUpdate id s)

/-- DRV.RESET (42_driver.md R165): the cached bytes are not changed. -/
def execDrvReset (d : Nat) (s : State) : Exec := withDev d s (fun dev => drvWrite dev frameReset id s)

/-- DRV.MODCFG (42_driver.md R166): the frame is sent even when the byte does not change, and the cache is updated
on `ok` only. -/
def execDrvModcfg (d : Nat) (mask value : Byte) (s : State) : Exec :=
  withDev d s (fun dev =>
    let new := masked (pick s.drv dev).cfg mask value
    drvWrite dev (frameConfig new) (fun t => t.setCfg dev new) s)

/-- DRV.MODLIT (42_driver.md R167). -/
def execDrvModlit (d : Nat) (mask value : Byte) (s : State) : Exec :=
  withDev d s (fun dev =>
    let new := masked (pick s.drv dev).lit mask value
    drvWrite dev (frameLighting new) (fun t => t.setLit dev new) s)

/-- DRV.CFG (42_driver.md R168). -/
def execDrvCfg (d : Nat) (s : State) : Exec := withDev d s (fun dev => finish [(pick s.drv dev).cfg] s)

/-- DRV.LIT (42_driver.md R169). -/
def execDrvLit (d : Nat) (s : State) : Exec := withDev d s (fun dev => finish [(pick s.drv dev).lit] s)

end Sys2Proof.Machine
end

