-- ==== Sys2Proof/Machine/Producer.lean ====
section
/-! DEFINITION. The row-byte protocol: chains of stages read forward or in reverse over the whole integer plane
(41_views.md R130 to R144, R153; 20_memory.md R54). -/

namespace Sys2Proof.Machine

/-- The direction of a read (41_views.md R143). -/
inductive Dir
  | fwd
  | rev
deriving DecidableEq, Repr

/-- `flip(fwd) = rev`, `flip(rev) = fwd` (41_views.md R143). -/
def Dir.flip : Dir → Dir
  | .fwd => .rev
  | .rev => .fwd

/-- The canvas byte at `(r, j)`, 0x00 outside the live region (41_views.md R134). -/
def State.canvasByte (s : State) (r j : Int) : Byte :=
  if s.liveRow r ∧ s.liveByte j then s.memRead r j else 0x00

/-- Eight source bytes packed into one: bit `i` of the result says whether source byte `i` has a bit of mask `m`
(41_views.md R140). -/
def rotPack (src : Nat → Byte) (m : Byte) : Byte :=
  (List.range 8).foldl (fun out i => if src i &&& m ≠ 0 then out ||| (1#8 <<< i) else out) 0x00

/-- The mask `0x80 >> bit` of the bit index `r` (41_views.md R140, R144). -/
def rotMask (r : Int) : Byte := 0x80#8 >>> (byteAndBit r).2.toNat

/-- Whether a read of a chain, given last stage first, is supported in a direction (41_views.md R143). -/
def supportedOuter : List Stage → Dir → Bool
  | [], _ => true
  | .flip :: c, d => supportedOuter c d.flip
  | .offset _ _ :: c, d => supportedOuter c d
  | .rot90 :: c, d => d == .fwd && supportedOuter c .fwd

/-- `Supported(S, dir)` of a chain as a slot holds it, stage 1 first (41_views.md R143). -/
def supported (c : List Stage) (d : Dir) : Bool := supportedOuter c.reverse d

/-- `Fwd` and `Rev` of a chain given last stage first (41_views.md R134, R135, R137 to R141). A reverse read of
ROT90 has no value: the empty list stands for it and is never emitted, since every reader checks
`supported` first (log 17). -/
def readOuter (s : State) : List Stage → Dir → Int → Int → Int → List Byte
  | [], .fwd, r, a, b => (intRange a b).map (s.canvasByte r)
  | [], .rev, r, a, b => (intRange a b).reverse.map (fun j => bitrev8 (s.canvasByte r j))
  | .flip :: c, d, r, a, b => readOuter s c d.flip r (-b) (-a)
  | .offset dx dy :: c, d, r, a, b => readOuter s c d (r - dy) (a - dx) (b - dx)
  | .rot90 :: c, .fwd, r, a, b =>
    (intRange a b).map (fun j =>
      rotPack (fun (i : Nat) =>
        (readOuter s c .fwd (8 * j + (i : Int)) (byteAndBit r).1 ((byteAndBit r).1 + 1)).headD 0x00) (rotMask r))
  | .rot90 :: _, .rev, _, _, _ => []

/-- `Fwd(S, row, a, b)` (41_views.md R130). -/
def fwd (s : State) (c : List Stage) (row a b : Int) : List Byte := readOuter s c.reverse .fwd row a b

/-- `Rev(S, row, a, b)` (41_views.md R130). -/
def rev (s : State) (c : List Stage) (row a b : Int) : List Byte := readOuter s c.reverse .rev row a b

/-- `BitsLen(S) = WIDTH` for every chain (41_views.md R136, R142). -/
def bitsLen (s : State) (_c : List Stage) : Half := s.width

/-- The pointwise form `F` of a chain given last stage first (41_views.md R153). -/
def pointOuter (s : State) : List Stage → Int → Int → Byte
  | [], r, j => s.canvasByte r j
  | .flip :: c, r, j => bitrev8 (pointOuter s c r (-1 - j))
  | .offset dx dy :: c, r, j => pointOuter s c (r - dy) (j - dx)
  | .rot90 :: c, r, j =>
    rotPack (fun (i : Nat) => pointOuter s c (8 * j + (i : Int)) (byteAndBit r).1) (rotMask r)

/-- `F(S, r, j)` (41_views.md R153). -/
def point (s : State) (c : List Stage) (r j : Int) : Byte := pointOuter s c.reverse r j

/-- The eight bytes a matrix target pulls: the first byte of rows 0 to 7, `Fwd(S, row, 0, 1)[0]`
(43_target_screen.md R191). -/
def pull (s : State) (c : List Stage) : List Byte :=
  (List.range Config.targetRows).map (fun (row : Nat) => (fwd s c (row : Int) 0 1).headD 0x00)

end Sys2Proof.Machine
end

