-- ==== Sys2Proof/Machine/View.lean ====
section
/-! DEFINITION. The view commands (41_views.md R145 to R152). -/

namespace Sys2Proof.Machine

/-- VW.CLEAR (41_views.md R145). -/
def execVwClear (slot : Nat) (s : State) : Exec := withSlot slot s (finish [] (s.setChain slot []))

/-- VW.FLIP (41_views.md R146). -/
def execVwFlip (slot : Nat) (s : State) : Exec := withSlot slot s (appendStage slot .flip s)

/-- VW.OFFSET (41_views.md R147). -/
def execVwOffset (slot : Nat) (dx dy : Int) (s : State) : Exec :=
  withSlot slot s (appendStage slot (.offset dx dy) s)

/-- VW.ROT90 (41_views.md R148). -/
def execVwRot90 (slot : Nat) (s : State) : Exec := withSlot slot s (appendStage slot .rot90 s)

/-- VW.BITSLEN (41_views.md R149). -/
def execVwBitslen (slot : Nat) (s : State) : Exec :=
  withSlot slot s (finish (be16 (bitsLen s (s.chain slot))) s)

/-- UNSUPPORTED when a chain cannot be read in a direction (41_views.md R143). -/
def checkSupported (c : List Stage) (d : Dir) : Option Status := if supported c d then none else some .unsupported

/-- VW.READ (41_views.md R150). -/
def execVwRead (slot : Nat) (row start stop : Int) (s : State) : Exec :=
  withSlot slot s
    (orRaise (checkSupported (s.chain slot) .fwd) s (finish (fwd s (s.chain slot) row start stop) s))

/-- VW.READREV (41_views.md R151). -/
def execVwReadrev (slot : Nat) (row start stop : Int) (s : State) : Exec :=
  withSlot slot s
    (orRaise (checkSupported (s.chain slot) .rev) s (finish (rev s (s.chain slot) row start stop) s))

/-- BITIDX (41_views.md R152): the byte as a two's complement 16-bit value, then the bit. -/
def execBitidx (b : Int) (s : State) : Exec :=
  finish (be16 (BitVec.ofInt 16 (byteAndBit b).1) ++ [BitVec.ofInt 8 (byteAndBit b).2]) s

end Sys2Proof.Machine
end

