-- ==== Sys2Proof/Machine/Screen.lean ====
section
/-! DEFINITION. The matrix target and the Screen sequencer (43_target_screen.md R190 to R196). -/

namespace Sys2Proof.Machine

/-- TGT.RENDER (43_target_screen.md R191): the eight bytes of a slot's chain, sent to one half's window. -/
def execTgtRender (d : Nat) (half : Half8x8) (slot : Nat) (s : State) : Exec :=
  withDev d s (fun dev =>
    withSlot slot s
      (orRaise (checkSupported (s.chain slot) .fwd) s
        (drvWrite dev (frameWindow (baseOf half) 0 (pull s (s.chain slot))) id s)))

/-- `PrimChain(i) = [FLIP, OFFSET(k, 0)]` (43_target_screen.md R192). -/
def primChain (k : Int) : List Stage := [.flip, .offset k 0]

/-- `SecChain(i) = [OFFSET(-k, 0), ROT90]` (43_target_screen.md R192). -/
def secChain (k : Int) : List Stage := [.offset (-k) 0, .rot90]

/-- The Lighting byte of the reinit sequence: current 20 mA, the other bits as cached (43_target_screen.md R193). -/
def reinitLit (s : State) (d : Dev) : Byte := masked (pick s.drv d).lit maskCurrent current20mA

/-- The Configuration byte of the reinit sequence: DisplayMode Both, the other bits as cached
(43_target_screen.md R193). -/
def reinitCfg (s : State) (d : Dev) : Byte := masked (pick s.drv d).cfg maskDisplayMode displayBoth

/-- The third step of the reinit sequence (43_target_screen.md R193). -/
def reinitConfig (d : Dev) (s : State) : Bool × State :=
  let t := s.busWrite d (frameConfig (reinitCfg s d))
  if isErr s.nextAnswer then (false, t) else (true, t.setCfg d (reinitCfg s d))

/-- The second step, and the third when it succeeds (43_target_screen.md R193). -/
def reinitLighting (d : Dev) (s : State) : Bool × State :=
  let t := s.busWrite d (frameLighting (reinitLit s d))
  if isErr s.nextAnswer then (false, t) else reinitConfig d (t.setLit d (reinitLit s d))

/-- `Reinit(i)`: reset, current 20 mA, display mode Both; it stops at the first failure and says whether all three
succeeded (43_target_screen.md R193). -/
def reinit (d : Dev) (s : State) : Bool × State :=
  let t := s.busWrite d frameReset
  if isErr s.nextAnswer then (false, t) else reinitLighting d t

/-- The primary half's frame: matrix window 1 with the bytes of the primary chain (43_target_screen.md R194). -/
def primFrame (s : State) (d : Dev) : List Byte :=
  frameWindow (baseOf .primary) 0 (pull s (primChain (pick s.par.screenK d)))

/-- The secondary half's frame: matrix window 2 with the bytes of the secondary chain (43_target_screen.md R194). -/
def secFrame (s : State) (d : Dev) : List Byte :=
  frameWindow (baseOf .secondary) 0 (pull s (secChain (pick s.par.screenK d)))

/-- `Frame(i)` and what it does to the flag: primary, secondary and update are each attempted, and the flag becomes
the OR of their outcomes (43_target_screen.md R194, R195). -/
def renderFrame (d : Dev) (s : State) : State :=
  let s1 := s.busWrite d (primFrame s d)
  let s2 := s1.busWrite d (secFrame s d)
  let s3 := s2.busWrite d frameUpdate
  s3.setReinit d (frameFlag s.nextAnswer s1.nextAnswer s2.nextAnswer)

/-- One device's part of SCR.RENDER: the reinit sequence when its flag is set, and the frame unless that fails
(43_target_screen.md R195). -/
def renderDev (d : Dev) (s : State) : State :=
  if pick s.needsReinit d then
    let r := reinit d s
    if r.1 then renderFrame d (r.2.setReinit d false) else r.2
  else renderFrame d s

/-- SCR.RENDER (43_target_screen.md R195): device 0 first, always status OK. -/
def execScrRender (s : State) : Exec := settle s ((renderDev .d1 (renderDev .d0 s)).respond .ok [])

/-- SCR.REINIT (43_target_screen.md R196). -/
def execScrReinit (s : State) : Exec := finish [reinitByte s.needsReinit] s

end Sys2Proof.Machine
end

