-- ==== Sys2Proof/Machine/Dispatch.lean ====
section
/-! DEFINITION. exec: one arm per command, each one call of its meaning. -/

namespace Sys2Proof.Machine

def exec (i : Instr) (s : State) : Host.Outcome State Fault Refusal :=
  match i with
  | .cvNew w h => Sys2Proof.Machine.execCvNew w h s
  | .cvWidth => Sys2Proof.Machine.execCvWidth s
  | .cvHeight => Sys2Proof.Machine.execCvHeight s
  | .cvCapw => Sys2Proof.Machine.execCvCapw s
  | .cvCaph => Sys2Proof.Machine.execCvCaph s
  | .cvRow y => Sys2Proof.Machine.execCvRow y s
  | .cvRoww y => Sys2Proof.Machine.execCvRoww y s
  | .cvByte bx y => Sys2Proof.Machine.execCvByte bx y s
  | .cvBytew bx y v => Sys2Proof.Machine.execCvBytew bx y v s
  | .cvBit x y => Sys2Proof.Machine.execCvBit x y s
  | .cvBitw x y v => Sys2Proof.Machine.execCvBitw x y v s
  | .cvAlpha => Sys2Proof.Machine.execCvAlpha s
  | .cvAlphaw present thr => Sys2Proof.Machine.execCvAlphaw present thr s
  | .cvDraw x y alpha => Sys2Proof.Machine.execCvDraw x y alpha s
  | .vwClear slot => Sys2Proof.Machine.execVwClear slot s
  | .vwFlip slot => Sys2Proof.Machine.execVwFlip slot s
  | .vwOffset slot dx dy => Sys2Proof.Machine.execVwOffset slot dx dy s
  | .vwRot90 slot => Sys2Proof.Machine.execVwRot90 slot s
  | .vwBitslen slot => Sys2Proof.Machine.execVwBitslen slot s
  | .vwRead slot row start stop => Sys2Proof.Machine.execVwRead slot row start stop s
  | .vwReadrev slot row start stop => Sys2Proof.Machine.execVwReadrev slot row start stop s
  | .bitidx b => Sys2Proof.Machine.execBitidx b s
  | .drvPwm d value => Sys2Proof.Machine.execDrvPwm d value s
  | .drvM1rows d startRow count => Sys2Proof.Machine.execDrvM1rows d startRow count s
  | .drvM2rows d startRow count => Sys2Proof.Machine.execDrvM2rows d startRow count s
  | .drvUpdate d => Sys2Proof.Machine.execDrvUpdate d s
  | .drvReset d => Sys2Proof.Machine.execDrvReset d s
  | .drvModcfg d mask value => Sys2Proof.Machine.execDrvModcfg d mask value s
  | .drvModlit d mask value => Sys2Proof.Machine.execDrvModlit d mask value s
  | .drvCfg d => Sys2Proof.Machine.execDrvCfg d s
  | .drvLit d => Sys2Proof.Machine.execDrvLit d s
  | .tgtRender d half slot => Sys2Proof.Machine.execTgtRender d half slot s
  | .scrRender => Sys2Proof.Machine.execScrRender s
  | .scrReinit => Sys2Proof.Machine.execScrReinit s

end Sys2Proof.Machine
end

