-- ==== Sys2Proof/WellFormed.lean ====
section
/-! DEFINITION. Which commands a 64-bit word can spell: each operand within the range of its field (30_encoding.md R70, R71). -/

namespace Sys2Proof

/-- A value of a signed 16-bit field (`sext_16`, 30_encoding.md R71). -/
abbrev signed16 (v : Int) : Prop := -32768 ≤ v ∧ v ≤ 32767

/-- A value of an unsigned 16-bit field (`zext_16`, 30_encoding.md R71). -/
abbrev unsigned16 (v : Nat) : Prop := v < 65536

/-- A value of the 4-bit field U (30_encoding.md R71). -/
abbrev unit4 (v : Nat) : Prop := v < 16

/-- Every operand is a value of its field. Bytes and 1-bit operands always are. -/
def WellFormed : Instr → Bool
  | .cvNew w h => decide (unsigned16 w ∧ unsigned16 h)
  | .cvWidth => true
  | .cvHeight => true
  | .cvCapw => true
  | .cvCaph => true
  | .cvRow y => decide (signed16 y)
  | .cvRoww y => decide (signed16 y)
  | .cvByte bx y => decide (signed16 bx ∧ signed16 y)
  | .cvBytew bx y _ => decide (signed16 bx ∧ signed16 y)
  | .cvBit x y => decide (signed16 x ∧ signed16 y)
  | .cvBitw x y _ => decide (signed16 x ∧ signed16 y)
  | .cvAlpha => true
  | .cvAlphaw _ _ => true
  | .cvDraw x y _ => decide (signed16 x ∧ signed16 y)
  | .vwClear u => decide (unit4 u)
  | .vwFlip u => decide (unit4 u)
  | .vwOffset u dx dy => decide (unit4 u ∧ signed16 dx ∧ signed16 dy)
  | .vwRot90 u => decide (unit4 u)
  | .vwBitslen u => decide (unit4 u)
  | .vwRead u row a b => decide (unit4 u ∧ signed16 row ∧ signed16 a ∧ signed16 b)
  | .vwReadrev u row a b => decide (unit4 u ∧ signed16 row ∧ signed16 a ∧ signed16 b)
  | .bitidx b => decide (signed16 b)
  | .drvPwm u _ => decide (unit4 u)
  | .drvM1rows u r c => decide (unit4 u ∧ unsigned16 r ∧ unsigned16 c)
  | .drvM2rows u r c => decide (unit4 u ∧ unsigned16 r ∧ unsigned16 c)
  | .drvUpdate u => decide (unit4 u)
  | .drvReset u => decide (unit4 u)
  | .drvModcfg u _ _ => decide (unit4 u)
  | .drvModlit u _ _ => decide (unit4 u)
  | .drvCfg u => decide (unit4 u)
  | .drvLit u => decide (unit4 u)
  | .tgtRender u _ slot => decide (unit4 u ∧ unsigned16 slot)
  | .scrRender => true
  | .scrReinit => true

end Sys2Proof
end

