-- ==== Sys2Proof/Decode.lean ====
section
/-! DEFINITION. The decoder, total on every 64-bit word, and the encoder (30_encoding.md R70 to R73), both over the fields of
the one format CMD64, and the opcode table itself. -/

namespace Sys2Proof

/-- The fields of a command word (30_encoding.md R70), C split into its two byte operands (R71). -/
structure Fields where
  op : BitVec 8
  u : BitVec 4
  k : BitVec 4
  a : Half
  b : Half
  ch : Byte
  cl : Byte
deriving DecidableEq, Repr

/-- The fields of a word: OP = w[63:56], U = w[55:52], K = w[51:48], A = w[47:32], B = w[31:16],
C[15:8] = w[15:8], C[7:0] = w[7:0] (30_encoding.md R70). -/
def Fields.ofWord (w : CmdWord) : Fields where
  op := w.extractLsb' 56 8
  u := w.extractLsb' 52 4
  k := w.extractLsb' 48 4
  a := w.extractLsb' 32 16
  b := w.extractLsb' 16 16
  ch := w.extractLsb' 8 8
  cl := w.extractLsb' 0 8

/-- The word of the fields: `OP << 56 | U << 52 | K << 48 | A << 32 | B << 16 | C` (30_encoding.md R70). -/
def Fields.toWord (f : Fields) : CmdWord :=
  f.op ++ f.u ++ f.k ++ f.a ++ f.b ++ f.ch ++ f.cl

/-- The whole 16-bit operand C (30_encoding.md R70). -/
def Fields.c (f : Fields) : Half := f.ch ++ f.cl

/-- Why a word is illegal (30_encoding.md R73). -/
inductive DecodeError
  /-- OP is not in rule R72. -/
  | unassignedOpcode (op : BitVec 8)
  /-- A reserved bit of the opcode's command is 1. -/
  | reservedBits (op : BitVec 8)
deriving DecidableEq, Repr

/-- The command when its reserved fields are zero, else the rejection of R73. -/
def ifClear (clear : Bool) (op : BitVec 8) (i : Instr) : Except DecodeError Instr :=
  if clear then .ok i else .error (.reservedBits op)

/-- The opcode map of 30_encoding.md R72 with the operand assembly of R71. Every field that a row does not
list is reserved and must be zero (R73). -/
def decodeFields (f : Fields) : Except DecodeError Instr :=
  match f.op.toNat with
  | 0x01 => ifClear (f.u == 0 && f.k == 0 && f.c == 0) f.op (.cvNew f.a.toNat f.b.toNat)
  | 0x02 => ifClear (f.u == 0 && f.k == 0 && f.a == 0 && f.b == 0 && f.c == 0) f.op .cvWidth
  | 0x03 => ifClear (f.u == 0 && f.k == 0 && f.a == 0 && f.b == 0 && f.c == 0) f.op .cvHeight
  | 0x04 => ifClear (f.u == 0 && f.k == 0 && f.a == 0 && f.b == 0 && f.c == 0) f.op .cvCapw
  | 0x05 => ifClear (f.u == 0 && f.k == 0 && f.a == 0 && f.b == 0 && f.c == 0) f.op .cvCaph
  | 0x06 => ifClear (f.u == 0 && f.k == 0 && f.b == 0 && f.c == 0) f.op (.cvRow f.a.toInt)
  | 0x07 => ifClear (f.u == 0 && f.k == 0 && f.b == 0 && f.c == 0) f.op (.cvRoww f.a.toInt)
  | 0x08 => ifClear (f.u == 0 && f.k == 0 && f.c == 0) f.op (.cvByte f.a.toInt f.b.toInt)
  | 0x09 => ifClear (f.u == 0 && f.k == 0 && f.ch == 0) f.op (.cvBytew f.a.toInt f.b.toInt f.cl)
  | 0x0A => ifClear (f.u == 0 && f.k == 0 && f.c == 0) f.op (.cvBit f.a.toInt f.b.toInt)
  | 0x0B => ifClear (f.u == 0 && f.k == 0 && f.c &&& 0xFFFE == 0) f.op (.cvBitw f.a.toInt f.b.toInt (f.cl.getLsbD 0))
  | 0x0C => ifClear (f.u == 0 && f.k == 0 && f.a == 0 && f.b == 0 && f.c == 0) f.op .cvAlpha
  | 0x0D => ifClear (f.u == 0 && f.k &&& 0xE == 0 && f.a == 0 && f.b == 0 && f.ch == 0) f.op (.cvAlphaw (f.k.getLsbD 0) f.cl)
  | 0x0E => ifClear (f.u == 0 && f.k == 0 && f.ch == 0) f.op (.cvDraw f.a.toInt f.b.toInt f.cl)
  | 0x10 => ifClear (f.k == 0 && f.a == 0 && f.b == 0 && f.c == 0) f.op (.vwClear f.u.toNat)
  | 0x11 => ifClear (f.k == 0 && f.a == 0 && f.b == 0 && f.c == 0) f.op (.vwFlip f.u.toNat)
  | 0x12 => ifClear (f.k == 0 && f.c == 0) f.op (.vwOffset f.u.toNat f.a.toInt f.b.toInt)
  | 0x13 => ifClear (f.k == 0 && f.a == 0 && f.b == 0 && f.c == 0) f.op (.vwRot90 f.u.toNat)
  | 0x14 => ifClear (f.k == 0 && f.a == 0 && f.b == 0 && f.c == 0) f.op (.vwBitslen f.u.toNat)
  | 0x15 => ifClear (f.k == 0) f.op (.vwRead f.u.toNat f.a.toInt f.b.toInt f.c.toInt)
  | 0x16 => ifClear (f.k == 0) f.op (.vwReadrev f.u.toNat f.a.toInt f.b.toInt f.c.toInt)
  | 0x17 => ifClear (f.u == 0 && f.k == 0 && f.b == 0 && f.c == 0) f.op (.bitidx f.a.toInt)
  | 0x20 => ifClear (f.k == 0 && f.a == 0 && f.b == 0 && f.ch == 0) f.op (.drvPwm f.u.toNat f.cl)
  | 0x21 => ifClear (f.k == 0 && f.c == 0) f.op (.drvM1rows f.u.toNat f.a.toNat f.b.toNat)
  | 0x22 => ifClear (f.k == 0 && f.c == 0) f.op (.drvM2rows f.u.toNat f.a.toNat f.b.toNat)
  | 0x23 => ifClear (f.k == 0 && f.a == 0 && f.b == 0 && f.c == 0) f.op (.drvUpdate f.u.toNat)
  | 0x24 => ifClear (f.k == 0 && f.a == 0 && f.b == 0 && f.c == 0) f.op (.drvReset f.u.toNat)
  | 0x25 => ifClear (f.k == 0 && f.a == 0 && f.b == 0) f.op (.drvModcfg f.u.toNat f.ch f.cl)
  | 0x26 => ifClear (f.k == 0 && f.a == 0 && f.b == 0) f.op (.drvModlit f.u.toNat f.ch f.cl)
  | 0x27 => ifClear (f.k == 0 && f.a == 0 && f.b == 0 && f.c == 0) f.op (.drvCfg f.u.toNat)
  | 0x28 => ifClear (f.k == 0 && f.a == 0 && f.b == 0 && f.c == 0) f.op (.drvLit f.u.toNat)
  | 0x30 => ifClear (f.k &&& 0xE == 0 && f.b == 0 && f.c == 0) f.op (.tgtRender f.u.toNat (if f.k.getLsbD 0 then .secondary else .primary) f.a.toNat)
  | 0x31 => ifClear (f.u == 0 && f.k == 0 && f.a == 0 && f.b == 0 && f.c == 0) f.op .scrRender
  | 0x32 => ifClear (f.u == 0 && f.k == 0 && f.a == 0 && f.b == 0 && f.c == 0) f.op .scrReinit
  | _ => .error (.unassignedOpcode f.op)

/-- The decoder: every 64-bit word is a command or is rejected by name (30_encoding.md R72, R73). -/
def decode (w : CmdWord) : Except DecodeError Instr := decodeFields (Fields.ofWord w)

/-- Fields that are zero but for OP, U, K, A, B and C. -/
def fieldsOf (op : BitVec 8) (u : Nat := 0) (k : BitVec 4 := 0) (a : Half := 0) (b : Half := 0) (c : Half := 0) : Fields where
  op := op
  u := BitVec.ofNat 4 u
  k := k
  a := a
  b := b
  ch := c.extractLsb' 8 8
  cl := c.extractLsb' 0 8

/-- A signed operand as its 16-bit pattern (30_encoding.md R71, two's complement). -/
def s16 (v : Int) : Half := BitVec.ofInt 16 v

/-- An unsigned operand as its 16-bit pattern (30_encoding.md R71). -/
def u16 (v : Nat) : Half := BitVec.ofNat 16 v

/-- A 1-bit operand in bit 0 of a field of width `n`. -/
def bit0 (n : Nat) (v : Bool) : BitVec n := (BitVec.ofBool v).setWidth n

/-- The fields of a command (30_encoding.md R71, R72; the "encodes" column of R77). -/
def encodeFields : Instr → Fields
  | .cvNew w h => fieldsOf 0x01 (a := u16 w) (b := u16 h)
  | .cvWidth => fieldsOf 0x02
  | .cvHeight => fieldsOf 0x03
  | .cvCapw => fieldsOf 0x04
  | .cvCaph => fieldsOf 0x05
  | .cvRow y => fieldsOf 0x06 (a := s16 y)
  | .cvRoww y => fieldsOf 0x07 (a := s16 y)
  | .cvByte bx y => fieldsOf 0x08 (a := s16 bx) (b := s16 y)
  | .cvBytew bx y v => fieldsOf 0x09 (a := s16 bx) (b := s16 y) (c := v.setWidth 16)
  | .cvBit x y => fieldsOf 0x0A (a := s16 x) (b := s16 y)
  | .cvBitw x y v => fieldsOf 0x0B (a := s16 x) (b := s16 y) (c := bit0 16 v)
  | .cvAlpha => fieldsOf 0x0C
  | .cvAlphaw present thr => fieldsOf 0x0D (k := bit0 4 present) (c := thr.setWidth 16)
  | .cvDraw x y alpha => fieldsOf 0x0E (a := s16 x) (b := s16 y) (c := alpha.setWidth 16)
  | .vwClear slot => fieldsOf 0x10 (u := slot)
  | .vwFlip slot => fieldsOf 0x11 (u := slot)
  | .vwOffset slot dx dy => fieldsOf 0x12 (u := slot) (a := s16 dx) (b := s16 dy)
  | .vwRot90 slot => fieldsOf 0x13 (u := slot)
  | .vwBitslen slot => fieldsOf 0x14 (u := slot)
  | .vwRead slot row start stop => fieldsOf 0x15 (u := slot) (a := s16 row) (b := s16 start) (c := s16 stop)
  | .vwReadrev slot row start stop => fieldsOf 0x16 (u := slot) (a := s16 row) (b := s16 start) (c := s16 stop)
  | .bitidx b => fieldsOf 0x17 (a := s16 b)
  | .drvPwm d value => fieldsOf 0x20 (u := d) (c := value.setWidth 16)
  | .drvM1rows d startRow count => fieldsOf 0x21 (u := d) (a := u16 startRow) (b := u16 count)
  | .drvM2rows d startRow count => fieldsOf 0x22 (u := d) (a := u16 startRow) (b := u16 count)
  | .drvUpdate d => fieldsOf 0x23 (u := d)
  | .drvReset d => fieldsOf 0x24 (u := d)
  | .drvModcfg d mask value => fieldsOf 0x25 (u := d) (c := mask ++ value)
  | .drvModlit d mask value => fieldsOf 0x26 (u := d) (c := mask ++ value)
  | .drvCfg d => fieldsOf 0x27 (u := d)
  | .drvLit d => fieldsOf 0x28 (u := d)
  | .tgtRender d half slot => fieldsOf 0x30 (u := d) (k := bit0 4 (half == .secondary)) (a := u16 slot)
  | .scrRender => fieldsOf 0x31
  | .scrReinit => fieldsOf 0x32

/-- The word of a command. -/
def encode (i : Instr) : CmdWord := (encodeFields i).toWord

/-- The instruction the decoder reads from a word given as a number of `nbits` bits, bit 0 the least
significant; bits above are 0. -/
def decodeTableWord (nbits w : Nat) : Option Instr :=
  (decode (BitVec.ofNat 64 (w % 2 ^ nbits))).toOption

/-- A command word a host has serialised, most significant byte first (20_memory.md R57 (6)): the word of the
first eight bytes and the bytes after it, or none when fewer than eight are there. -/
def wordOfBytes : List Byte → Option (CmdWord × List Byte)
  | b7 :: b6 :: b5 :: b4 :: b3 :: b2 :: b1 :: b0 :: rest =>
    some (b7 ++ b6 ++ b5 ++ b4 ++ b3 ++ b2 ++ b1 ++ b0, rest)
  | _ => none

/-- The eight bytes of a word, most significant first (20_memory.md R57 (6)). -/
def bytesOfWord (w : CmdWord) : List Byte :=
  [w.extractLsb' 56 8, w.extractLsb' 48 8, w.extractLsb' 40 8, w.extractLsb' 32 8,
   w.extractLsb' 24 8, w.extractLsb' 16 8, w.extractLsb' 8 8, w.extractLsb' 0 8]

/-- A row of spec/opcode_table.json: a word spells the command when `w AND mask = pattern` (30_encoding.md R72). -/
structure OpRow where
  mnemonic : String
  pattern : CmdWord
  mask : CmdWord
deriving DecidableEq, Repr

/-- The canvas rows of 30_encoding.md R72. -/
def opRowsCanvas : List OpRow := [
  { mnemonic := "CV.NEW", pattern := 0x0100000000000000, mask := 0xFFFF00000000FFFF },
  { mnemonic := "CV.WIDTH", pattern := 0x0200000000000000, mask := 0xFFFFFFFFFFFFFFFF },
  { mnemonic := "CV.HEIGHT", pattern := 0x0300000000000000, mask := 0xFFFFFFFFFFFFFFFF },
  { mnemonic := "CV.CAPW", pattern := 0x0400000000000000, mask := 0xFFFFFFFFFFFFFFFF },
  { mnemonic := "CV.CAPH", pattern := 0x0500000000000000, mask := 0xFFFFFFFFFFFFFFFF },
  { mnemonic := "CV.ROW", pattern := 0x0600000000000000, mask := 0xFFFF0000FFFFFFFF },
  { mnemonic := "CV.ROWW", pattern := 0x0700000000000000, mask := 0xFFFF0000FFFFFFFF },
  { mnemonic := "CV.BYTE", pattern := 0x0800000000000000, mask := 0xFFFF00000000FFFF },
  { mnemonic := "CV.BYTEW", pattern := 0x0900000000000000, mask := 0xFFFF00000000FF00 },
  { mnemonic := "CV.BIT", pattern := 0x0A00000000000000, mask := 0xFFFF00000000FFFF },
  { mnemonic := "CV.BITW", pattern := 0x0B00000000000000, mask := 0xFFFF00000000FFFE },
  { mnemonic := "CV.ALPHA", pattern := 0x0C00000000000000, mask := 0xFFFFFFFFFFFFFFFF },
  { mnemonic := "CV.ALPHAW", pattern := 0x0D00000000000000, mask := 0xFFFEFFFFFFFFFF00 },
  { mnemonic := "CV.DRAW", pattern := 0x0E00000000000000, mask := 0xFFFF00000000FF00 }]

/-- The view rows of 30_encoding.md R72. -/
def opRowsView : List OpRow := [
  { mnemonic := "VW.CLEAR", pattern := 0x1000000000000000, mask := 0xFF0FFFFFFFFFFFFF },
  { mnemonic := "VW.FLIP", pattern := 0x1100000000000000, mask := 0xFF0FFFFFFFFFFFFF },
  { mnemonic := "VW.OFFSET", pattern := 0x1200000000000000, mask := 0xFF0F00000000FFFF },
  { mnemonic := "VW.ROT90", pattern := 0x1300000000000000, mask := 0xFF0FFFFFFFFFFFFF },
  { mnemonic := "VW.BITSLEN", pattern := 0x1400000000000000, mask := 0xFF0FFFFFFFFFFFFF },
  { mnemonic := "VW.READ", pattern := 0x1500000000000000, mask := 0xFF0F000000000000 },
  { mnemonic := "VW.READREV", pattern := 0x1600000000000000, mask := 0xFF0F000000000000 },
  { mnemonic := "BITIDX", pattern := 0x1700000000000000, mask := 0xFFFF0000FFFFFFFF }]

/-- The driver rows of 30_encoding.md R72. -/
def opRowsDriver : List OpRow := [
  { mnemonic := "DRV.PWM", pattern := 0x2000000000000000, mask := 0xFF0FFFFFFFFFFF00 },
  { mnemonic := "DRV.M1ROWS", pattern := 0x2100000000000000, mask := 0xFF0F00000000FFFF },
  { mnemonic := "DRV.M2ROWS", pattern := 0x2200000000000000, mask := 0xFF0F00000000FFFF },
  { mnemonic := "DRV.UPDATE", pattern := 0x2300000000000000, mask := 0xFF0FFFFFFFFFFFFF },
  { mnemonic := "DRV.RESET", pattern := 0x2400000000000000, mask := 0xFF0FFFFFFFFFFFFF },
  { mnemonic := "DRV.MODCFG", pattern := 0x2500000000000000, mask := 0xFF0FFFFFFFFF0000 },
  { mnemonic := "DRV.MODLIT", pattern := 0x2600000000000000, mask := 0xFF0FFFFFFFFF0000 },
  { mnemonic := "DRV.CFG", pattern := 0x2700000000000000, mask := 0xFF0FFFFFFFFFFFFF },
  { mnemonic := "DRV.LIT", pattern := 0x2800000000000000, mask := 0xFF0FFFFFFFFFFFFF }]

/-- The target and Screen rows of 30_encoding.md R72. -/
def opRowsScreen : List OpRow := [
  { mnemonic := "TGT.RENDER", pattern := 0x3000000000000000, mask := 0xFF0E0000FFFFFFFF },
  { mnemonic := "SCR.RENDER", pattern := 0x3100000000000000, mask := 0xFFFFFFFFFFFFFFFF },
  { mnemonic := "SCR.REINIT", pattern := 0x3200000000000000, mask := 0xFFFFFFFFFFFFFFFF }]

/-- The whole table of 30_encoding.md R72. -/
def opcodeTable : List OpRow := opRowsCanvas ++ opRowsView ++ opRowsDriver ++ opRowsScreen

/-- A word spells a row's command (30_encoding.md R72). -/
def OpRow.spells (r : OpRow) (w : CmdWord) : Bool := w &&& r.mask == r.pattern

/-- The mnemonic of a command, as the table spells it. -/
def Instr.mnemonic : Instr → String
  | .cvNew _ _ => "CV.NEW"
  | .cvWidth => "CV.WIDTH"
  | .cvHeight => "CV.HEIGHT"
  | .cvCapw => "CV.CAPW"
  | .cvCaph => "CV.CAPH"
  | .cvRow _ => "CV.ROW"
  | .cvRoww _ => "CV.ROWW"
  | .cvByte _ _ => "CV.BYTE"
  | .cvBytew _ _ _ => "CV.BYTEW"
  | .cvBit _ _ => "CV.BIT"
  | .cvBitw _ _ _ => "CV.BITW"
  | .cvAlpha => "CV.ALPHA"
  | .cvAlphaw _ _ => "CV.ALPHAW"
  | .cvDraw _ _ _ => "CV.DRAW"
  | .vwClear _ => "VW.CLEAR"
  | .vwFlip _ => "VW.FLIP"
  | .vwOffset _ _ _ => "VW.OFFSET"
  | .vwRot90 _ => "VW.ROT90"
  | .vwBitslen _ => "VW.BITSLEN"
  | .vwRead _ _ _ _ => "VW.READ"
  | .vwReadrev _ _ _ _ => "VW.READREV"
  | .bitidx _ => "BITIDX"
  | .drvPwm _ _ => "DRV.PWM"
  | .drvM1rows _ _ _ => "DRV.M1ROWS"
  | .drvM2rows _ _ _ => "DRV.M2ROWS"
  | .drvUpdate _ => "DRV.UPDATE"
  | .drvReset _ => "DRV.RESET"
  | .drvModcfg _ _ _ => "DRV.MODCFG"
  | .drvModlit _ _ _ => "DRV.MODLIT"
  | .drvCfg _ => "DRV.CFG"
  | .drvLit _ => "DRV.LIT"
  | .tgtRender _ _ _ => "TGT.RENDER"
  | .scrRender => "SCR.RENDER"
  | .scrReinit => "SCR.REINIT"

end Sys2Proof
end

