-- ==== Sys2Proof/Machine/Fetch.lean ====
section
/-! DEFINITION. Between commands: taking a command word and its payload from the host, the payload length of a word, illegal
words, and the reset event (30_encoding.md R73, R74; 60_exceptions.md R213; 70_reset_and_hazards.md R240). -/

namespace Sys2Proof.Machine

/-- The host has sent a command: its payload bytes join the payload stream, and `rest` is still to come
(30_encoding.md R70, R74). Log 3. -/
def State.accept (s : State) (payload : List Byte) (rest : List HostEvent) : State :=
  { s with hostIn := rest, payIn := s.payIn ++ payload }

/-- `PayloadLen` of a word, by its OP and, for CV.ROWW, by WIDTH; 0 for every other opcode, unassigned ones included
(30_encoding.md R74). -/
def payloadLen (w : CmdWord) (s : State) : Nat :=
  match (Fields.ofWord w).op.toNat with
  | 0x07 => s.rowLen
  | 0x21 => (Fields.ofWord w).b.toNat
  | 0x22 => (Fields.ofWord w).b.toNat
  | _ => 0

/-- An illegal word: its payload is consumed, the status is ILLEGAL, and nothing else changes (30_encoding.md R73,
60_exceptions.md R213). -/
def illegalWord (w : CmdWord) (s : State) : Exec :=
  withPayload (payloadLen w s) s (fun _ s => raise .illegal s)

/-- The reset event: every register of R38 and the streams at the values of R241, nothing sent on the bus
(70_reset_and_hazards.md R240). The parameters, the host's later events, the bus agent and the trace are not the
block's and stay (log 13). -/
def State.resetEvent (s : State) (rest : List HostEvent) : State :=
  { State.resetWith s.par with
    hostIn := rest
    busIn := s.busIn
    busStall := s.busStall
    busOut := s.busOut
    draws := s.draws }

/-- The word of a numeral of `nbits` bits, the bits above zero. -/
def tableWord (nbits w : Nat) : CmdWord := BitVec.ofNat 64 (w % 2 ^ nbits)

/-- The host sends a word next, with as many zero payload bytes as it takes. -/
def State.sendNext (s : State) (w : CmdWord) : State :=
  { s with hostIn := .command w (List.replicate (payloadLen w s) 0x00) :: s.hostIn }

end Sys2Proof.Machine
end

