-- ==== Sys2Proof/Machine/Step.lean ====
section
/-! DEFINITION. One step: one host event (10_state.md R20, 60_exceptions.md R213). -/

namespace Sys2Proof.Machine

/-- One step of the block: it takes the host's next event. A command word that decodes is executed, any other word is
ILLEGAL (30_encoding.md R73), the reset input is taken between commands (70_reset_and_hazards.md R240), and with no event
the block waits (60_exceptions.md R216). -/
def step (s : State) : Host.Outcome State Fault Refusal :=
  match s.hostIn with
  | [] => .fault .waitCommand
  | .reset :: rest => .next (s.resetEvent rest)
  | .command w payload :: rest =>
    match decode w with
    | .ok i => exec i (s.accept payload rest)
    | .error _ => illegalWord w (s.accept payload rest)

/-- The state whose next step runs the given word: the host sends it next, with the payload bytes it takes (zeros).
Nothing else changes (log 4). -/
def State.withFetchWord (s : State) (nbits w : Nat) : State := s.sendNext (tableWord nbits w)

end Sys2Proof.Machine
end

