-- ==== Sys2Proof/Machine/Pseudo.lean ====
section
/-! DEFINITION. The pseudo-instructions and their expansions (30_encoding.md R78), and the assembler text of a command
(30_encoding.md R77). -/

namespace Sys2Proof.Machine

/-- DisplayMode arguments of `drv.dispmode` (30_encoding.md R78). -/
inductive DispMode
  | m1only
  | m2only
  | both
deriving DecidableEq, Repr

/-- MatrixMode arguments of `drv.matmode` (30_encoding.md R78). -/
inductive MatMode
  | m8x8
  | m7x9
  | m6x10
  | m5x11
deriving DecidableEq, Repr

/-- The pseudo-instructions of 30_encoding.md R78. -/
inductive Pseudo
  | cvSet (x y : Int)
  | cvClr (x y : Int)
  | drvShutdown (d : Nat) (on : Bool)
  | drvDispmode (d : Nat) (m : DispMode)
  | drvAudio (d : Nat) (on : Bool)
  | drvMatmode (d : Nat) (m : MatMode)
  | drvCurrent (d : Nat) (c : BitVec 4)
  | drvGain (d : Nat) (g : BitVec 3)
  | vwChain (slot : Nat) (stages : List Stage)
deriving DecidableEq, Repr

/-- The DisplayMode field's value (30_encoding.md R85). -/
def DispMode.value : DispMode → Byte
  | .m1only => 0x00
  | .m2only => 0x08
  | .both => 0x18

/-- The MatrixMode field's value (30_encoding.md R85). -/
def MatMode.value : MatMode → Byte
  | .m8x8 => 0x00
  | .m7x9 => 0x01
  | .m6x10 => 0x02
  | .m5x11 => 0x03

/-- The command that appends a stage to a slot (30_encoding.md R78). -/
def stageCommand (slot : Nat) : Stage → Instr
  | .flip => .vwFlip slot
  | .offset dx dy => .vwOffset slot dx dy
  | .rot90 => .vwRot90 slot

/-- The expansion of a pseudo-instruction (30_encoding.md R78). The boolean setters write the field's mask value
(90_conflicts.md C3). -/
def Pseudo.expand : Pseudo → List Instr
  | .cvSet x y => [.cvBitw x y true]
  | .cvClr x y => [.cvBitw x y false]
  | .drvShutdown d on => [.drvModcfg d maskShutdown (if on then maskShutdown else 0x00)]
  | .drvDispmode d m => [.drvModcfg d maskDisplayMode m.value]
  | .drvAudio d on => [.drvModcfg d maskAudio (if on then maskAudio else 0x00)]
  | .drvMatmode d m => [.drvModcfg d maskMatrixMode m.value]
  | .drvCurrent d c => [.drvModlit d maskCurrent (c.setWidth 8)]
  | .drvGain d g => [.drvModlit d maskAudioGain ((g.setWidth 8) <<< 4)]
  | .vwChain slot stages => .vwClear slot :: stages.map (stageCommand slot)

/-- Operands separated by commas (30_encoding.md R77). -/
def commaList : List String → String
  | [] => ""
  | [x] => x
  | x :: rest => x ++ ", " ++ commaList rest

/-- A payload as a bracketed byte list, in decimal (30_encoding.md R77). -/
def bracketed (p : List Byte) : String := "[" ++ commaList (p.map (fun b => toString b.toNat)) ++ "]"

/-- A mnemonic in lower case and its operands (30_encoding.md R77). -/
def asmLine (name : String) (operands : List String) : String :=
  if operands = [] then name else name ++ " " ++ commaList operands

/-- The assembler line of a command with its payload, numbers in decimal; none where no line of R77 spells the word
(CV.ALPHAW with no threshold present and `thr` not zero). Log 21. -/
def asm (p : List Byte) : Instr → Option String
  | .cvNew w h => some (asmLine "cv.new" [toString w, toString h])
  | .cvWidth => some (asmLine "cv.width" [])
  | .cvHeight => some (asmLine "cv.height" [])
  | .cvCapw => some (asmLine "cv.capw" [])
  | .cvCaph => some (asmLine "cv.caph" [])
  | .cvRow y => some (asmLine "cv.row" [toString y])
  | .cvRoww y => some (asmLine "cv.roww" [toString y, bracketed p])
  | .cvByte bx y => some (asmLine "cv.byte" [toString bx, toString y])
  | .cvBytew bx y v => some (asmLine "cv.bytew" [toString bx, toString y, toString v.toNat])
  | .cvBit x y => some (asmLine "cv.bit" [toString x, toString y])
  | .cvBitw x y v => some (asmLine "cv.bitw" [toString x, toString y, if v then "1" else "0"])
  | .cvAlpha => some (asmLine "cv.alpha" [])
  | .cvAlphaw present thr =>
    if present then some (asmLine "cv.alphaw" [toString thr.toNat])
    else if thr = 0x00 then some (asmLine "cv.alphaw" ["none"]) else none
  | .cvDraw x y alpha => some (asmLine "cv.draw" [toString x, toString y, toString alpha.toNat])
  | .vwClear slot => some (asmLine "vw.clear" [toString slot])
  | .vwFlip slot => some (asmLine "vw.flip" [toString slot])
  | .vwOffset slot dx dy => some (asmLine "vw.offset" [toString slot, toString dx, toString dy])
  | .vwRot90 slot => some (asmLine "vw.rot90" [toString slot])
  | .vwBitslen slot => some (asmLine "vw.bitslen" [toString slot])
  | .vwRead slot row a b => some (asmLine "vw.read" [toString slot, toString row, toString a, toString b])
  | .vwReadrev slot row a b => some (asmLine "vw.readrev" [toString slot, toString row, toString a, toString b])
  | .bitidx b => some (asmLine "bitidx" [toString b])
  | .drvPwm d value => some (asmLine "drv.pwm" [toString d, toString value.toNat])
  | .drvM1rows d r _ => some (asmLine "drv.m1rows" [toString d, toString r, bracketed p])
  | .drvM2rows d r _ => some (asmLine "drv.m2rows" [toString d, toString r, bracketed p])
  | .drvUpdate d => some (asmLine "drv.update" [toString d])
  | .drvReset d => some (asmLine "drv.reset" [toString d])
  | .drvModcfg d mask value => some (asmLine "drv.modcfg" [toString d, toString mask.toNat, toString value.toNat])
  | .drvModlit d mask value => some (asmLine "drv.modlit" [toString d, toString mask.toNat, toString value.toNat])
  | .drvCfg d => some (asmLine "drv.cfg" [toString d])
  | .drvLit d => some (asmLine "drv.lit" [toString d])
  | .tgtRender d half slot =>
    some (asmLine "tgt.render" [toString d, if half = .primary then "primary" else "secondary", toString slot])
  | .scrRender => some (asmLine "scr.render" [])
  | .scrReinit => some (asmLine "scr.reinit" [])

end Sys2Proof.Machine
end

