-- ==== Sys2Proof/Safety.lean ====
section
/-! DEFINITION. The terms claims use: the invariant of the block's state, what each command takes, returns and may raise, and
what counts as a breach of the source's contract (10_state.md R38; 30_encoding.md R72, R74; 60_exceptions.md R211, R215). -/

namespace Sys2Proof.Machine

/-! ### The legal values of the registers (10_state.md R38) -/

/-- WIDTH and HEIGHT within the capacities (10_state.md R25, R26). -/
abbrev State.geometryOk (s : State) : Prop := s.width.toNat ≤ s.par.capW ∧ s.height.toNat ≤ s.par.capH

/-- ALPHA_THR is 0 when no threshold is present (10_state.md R29). -/
abbrev State.alphaOk (s : State) : Prop := s.alphaSet = false → s.alphaThr = 0x00

/-- DX and DY are 16-bit signed values (10_state.md R31). -/
def Stage.ok : Stage → Bool
  | .flip => true
  | .offset dx dy => decide (signed16 dx ∧ signed16 dy)
  | .rot90 => true

/-- VIEW_SLOTS slots of at most VIEW_DEPTH stages each (10_state.md R30, R31). -/
abbrev State.slotsOk (s : State) : Prop :=
  s.slots.length = s.par.viewSlots ∧ ∀ c ∈ s.slots, c.length ≤ s.par.viewDepth ∧ ∀ t ∈ c, t.ok = true

/-- A store address lies in the live region (20_memory.md R51). -/
abbrev State.liveAddr (s : State) (a : Nat) : Prop := a / s.stride < s.height.toNat ∧ a % s.stride < s.rowLen

/-- The store is in canonical form, and every byte that is not 0x00 is live (20_memory.md R51). -/
abbrev State.storeOk (s : State) : Prop := s.cv.wf = true ∧ ∀ c ∈ s.cv, s.liveAddr c.1

/-- The invariant: legal parameters, and every register at a legal value (00_scope.md R5, 10_state.md R38). -/
abbrev State.Inv (s : State) : Prop :=
  s.par.legal ∧ s.geometryOk ∧ s.alphaOk ∧ s.slotsOk ∧ s.storeOk

/-! ### What a command takes, returns and may raise -/

/-- Payload bytes a command takes (30_encoding.md R72 "payload", R74). -/
def commandPayload (s : State) : Instr → Nat
  | .cvRoww _ => s.rowLen
  | .drvM1rows _ _ count => count
  | .drvM2rows _ _ count => count
  | _ => 0

/-- Response data bytes on status OK (30_encoding.md R72 "data"). -/
def okDataLength (s : State) : Instr → Nat
  | .cvWidth => 2
  | .cvHeight => 2
  | .cvCapw => 2
  | .cvCaph => 2
  | .cvRow _ => s.rowLen
  | .cvByte _ _ => 1
  | .cvBit _ _ => 1
  | .cvAlpha => 2
  | .vwBitslen _ => 2
  | .vwRead _ _ start stop => (stop - start).toNat
  | .vwReadrev _ _ start stop => (stop - start).toNat
  | .bitidx _ => 3
  | .drvCfg _ => 1
  | .drvLit _ => 1
  | .scrReinit => 1
  | _ => 0

/-- The mnemonics that may raise a status (60_exceptions.md R211, "raised by"); ILLEGAL is raised by no command. -/
def raisedBy : Status → List String
  | .ok => opcodeTable.map OpRow.mnemonic
  | .widthCap => ["CV.NEW"]
  | .heightCap => ["CV.NEW"]
  | .xOob => ["CV.BYTE", "CV.BYTEW", "CV.BIT", "CV.BITW"]
  | .yOob => ["CV.ROW", "CV.ROWW", "CV.BYTE", "CV.BYTEW", "CV.BIT", "CV.BITW"]
  | .unsupported => ["VW.READ", "VW.READREV", "TGT.RENDER"]
  | .transport =>
    ["DRV.PWM", "DRV.M1ROWS", "DRV.M2ROWS", "DRV.UPDATE", "DRV.RESET", "DRV.MODCFG", "DRV.MODLIT", "TGT.RENDER"]
  | .payloadRange => ["DRV.M1ROWS", "DRV.M2ROWS"]
  | .depthFull => ["VW.FLIP", "VW.OFFSET", "VW.ROT90"]
  | .badUnit =>
    ["VW.CLEAR", "VW.FLIP", "VW.OFFSET", "VW.ROT90", "VW.BITSLEN", "VW.READ", "VW.READREV", "DRV.PWM", "DRV.M1ROWS",
     "DRV.M2ROWS", "DRV.UPDATE", "DRV.RESET", "DRV.MODCFG", "DRV.MODLIT", "DRV.CFG", "DRV.LIT", "TGT.RENDER"]
  | .illegal => []

/-- A DRV.* command (42_driver.md). -/
def isDriver : Instr → Bool
  | .drvPwm _ _ => true
  | .drvM1rows _ _ _ => true
  | .drvM2rows _ _ _ => true
  | .drvUpdate _ => true
  | .drvReset _ => true
  | .drvModcfg _ _ _ => true
  | .drvModlit _ _ _ => true
  | .drvCfg _ => true
  | .drvLit _ => true
  | _ => false

/-- The block's own registers of 10_state.md R38 are the same in two states. -/
abbrev State.sameRegisters (s t : State) : Prop :=
  t.par = s.par ∧ t.cv = s.cv ∧ t.width = s.width ∧ t.height = s.height ∧ t.alphaSet = s.alphaSet ∧
  t.alphaThr = s.alphaThr ∧ t.slots = s.slots ∧ t.drv = s.drv ∧ t.needsReinit = s.needsReinit

/-- Nothing of the environment changed: the bus is untouched and no free value was drawn. -/
abbrev State.sameBus (s t : State) : Prop :=
  t.busIn = s.busIn ∧ t.busStall = s.busStall ∧ t.busOut = s.busOut ∧ t.draws = s.draws

/-- None of the next `m` bus writes is the one the bus agent never answers (20_memory.md R56, 60_exceptions.md R216). -/
abbrev State.answeredFor (s : State) (m : Nat) : Prop :=
  ∀ k ∈ s.busStall, k < s.busOut.length ∨ s.busOut.length + m ≤ k

/-- A word that spells no row of the opcode table: illegal (30_encoding.md R73). -/
abbrev spellsNone (w : CmdWord) : Prop := ∀ r ∈ opcodeTable, r.spells w = false

/-- The column, its limit and the row of the commands that check both (40_canvas.md R100). -/
def columnOf (s : State) : Instr → Option (Int × Nat × Int)
  | .cvByte bx y => some (bx, s.rowLen, y)
  | .cvBytew bx y _ => some (bx, s.rowLen, y)
  | .cvBit x y => some (x, s.width.toNat, y)
  | .cvBitw x y _ => some (x, s.width.toNat, y)
  | _ => none

/-- The slot operand of a VW.* command (60_exceptions.md R213). -/
def viewSlotOf : Instr → Option Nat
  | .vwClear slot => some slot
  | .vwFlip slot => some slot
  | .vwOffset slot _ _ => some slot
  | .vwRot90 slot => some slot
  | .vwBitslen slot => some slot
  | .vwRead slot _ _ _ => some slot
  | .vwReadrev slot _ _ _ => some slot
  | _ => none

/-- The device operand of a DRV.* command (60_exceptions.md R213). -/
def driverUnitOf : Instr → Option Nat
  | .drvPwm d _ => some d
  | .drvM1rows d _ _ => some d
  | .drvM2rows d _ _ => some d
  | .drvUpdate d => some d
  | .drvReset d => some d
  | .drvModcfg d _ _ => some d
  | .drvModlit d _ _ => some d
  | .drvCfg d => some d
  | .drvLit d => some d
  | _ => none

/-- From `s` to `u`, pixel `(x, y)` became `v` and every other bit of the store stayed (40_canvas.md R112). -/
abbrev pixelWritten (s u : State) (x y : Int) (v : Bool) : Prop :=
  (u.memRead y (x / 8)).getLsbD (7 - (x % 8).toNat) = v ∧
  (∀ k < 8, k ≠ 7 - (x % 8).toNat → (u.memRead y (x / 8)).getLsbD k = (s.memRead y (x / 8)).getLsbD k) ∧
  ∀ a, a ≠ s.addr y (x / 8) → u.cv.read a = s.cv.read a

/-! ### What the Screen sends to one device (43_target_screen.md R193 to R195) -/

/-- The Lighting byte with current 20 mA (43_target_screen.md R193). -/
def lit20mA (v : Driver) : Byte := (v.lit &&& ~~~0x0F) ||| 0x0B

/-- The Configuration byte with DisplayMode Both (43_target_screen.md R193). -/
def cfgBoth (v : Driver) : Byte := (v.cfg &&& ~~~0x18) ||| 0x18

/-- The three frames of the reinit sequence (43_target_screen.md R193). -/
def reinitFrames (v : Driver) : List (List Byte) := [[0xFF, 0x00], [0x0D, lit20mA v], [0x00, cfgBoth v]]

/-- The three frames of a device's render (43_target_screen.md R194). -/
def renderFrames (s : State) (d : Dev) : List (List Byte) :=
  [0x01 :: pull s [.flip, .offset (pick s.par.screenK d) 0],
   0x0E :: pull s [.offset (-(pick s.par.screenK d)) 0, .rot90],
   [0x0C, 0x00]]

/-- The driver's cached bytes after `k` successful reinit steps (43_target_screen.md R193). -/
def afterReinitSteps (v : Driver) (k : Nat) : Driver where
  lit := if 2 ≤ k then lit20mA v else v.lit
  cfg := if 3 ≤ k then cfgBoth v else v.cfg

/-- One device's part of SCR.RENDER started in `s`: the writes `ws` it makes, its flag and cached bytes afterwards
(43_target_screen.md R193 to R195). Its flag clear: the three frames. Its flag set: the reinit sequence up to its
first failure, the flag staying set; or the whole of it and the three frames. -/
def DeviceTrace (s : State) (d : Dev) (ws : List BusWrite) (flag : Bool) (cache : Driver) : Prop :=
  (∀ w ∈ ws, w.addr = pick s.par.devAddr d) ∧
  ((pick s.needsReinit d = false ∧ ws.map BusWrite.frame = renderFrames s d ∧
      flag = ws.any (fun w => isErr w.answer) ∧ cache = pick s.drv d) ∨
   (pick s.needsReinit d = true ∧ ∃ k < 3, ws.map BusWrite.frame = (reinitFrames (pick s.drv d)).take (k + 1) ∧
      ws.map (fun w => isErr w.answer) = List.replicate k false ++ [true] ∧
      flag = true ∧ cache = afterReinitSteps (pick s.drv d) k) ∨
   (pick s.needsReinit d = true ∧ ws.map BusWrite.frame = reinitFrames (pick s.drv d) ++ renderFrames s d ∧
      (ws.take 3).any (fun w => isErr w.answer) = false ∧ flag = (ws.drop 3).any (fun w => isErr w.answer) ∧
      cache = afterReinitSteps (pick s.drv d) 3))

/-- The device, the field's mask and which cached byte a field setter of 30_encoding.md R78 writes (`true`: Lighting). -/
def setterField : Pseudo → Option (Nat × Byte × Bool)
  | .drvShutdown d _ => some (d, 0x80, false)
  | .drvDispmode d _ => some (d, 0x18, false)
  | .drvAudio d _ => some (d, 0x04, false)
  | .drvMatmode d _ => some (d, 0x03, false)
  | .drvCurrent d _ => some (d, 0x0F, true)
  | .drvGain d _ => some (d, 0x70, true)
  | _ => none

/-- A status by which a host program that keeps the source's contract never ends a command (60_exceptions.md R215,
93_implementation_defined.md I6, I11). -/
def hostBreach : Status → Bool
  | .unsupported => true
  | .illegal => true
  | _ => false

/-- A safe step: it answers a next state, and its response, if it is a command, is no breach of the contract. -/
def safeStep (s : State) : Bool :=
  match step s with
  | .next t => match t.response with
    | some r => !hostBreach r.status
    | none => true
  | _ => false

end Sys2Proof.Machine
end

