-- ==== Sys2Proof/Certificates/Slice0/Obligations.lean ====
section
/-! DEFINITION. The statements for the provers. Each docstring says what the statement formalises. -/

open Sys2Proof Sys2Proof.Machine

/-- Decoding the word of a well-formed command gives the command back. Derived from 30_encoding.md sections 1 to 3; 60_exceptions.md section 1. -/
def Obligations.DecodeOfEncode : Prop :=
  ∀ i : Instr, WellFormed i = true → decode (encode i) = .ok i

/-- Every word that decodes is the word of the command it decodes to. Derived from 30_encoding.md sections 1 to 4. -/
def Obligations.EncodeOfDecode : Prop :=
  ∀ (w : CmdWord) (i : Instr), decode w = .ok i → WellFormed i = true ∧ encode i = w

/-- A word decodes to a command exactly when it spells that command's row of the opcode table. Derived from 30_encoding.md section 3 (match and mask of each row); 30_encoding.md section 4. -/
def Obligations.DecodeAgreesWithOpcodeTable : Prop :=
  ∀ w : CmdWord,
    (∀ i, decode w = .ok i → ∃ r ∈ opcodeTable, r.mnemonic = i.mnemonic ∧ r.spells w = true) ∧
    (∀ r ∈ opcodeTable, r.spells w = true → ∃ i, decode w = .ok i ∧ i.mnemonic = r.mnemonic)

/-- One written-out word of each family decodes to the command it spells. Derived from 95_test_vectors.md V20; 30_encoding.md section 3. -/
def Obligations.WordsOfTheSpecDecode : Prop :=
  decode 0x08000003FFFE0000 = .ok (.cvByte 3 (-2)) ∧
  decode 0x0D0100000000007F = .ok (.cvAlphaw true 0x7F) ∧
  decode 0x1220FFFD00010000 = .ok (.vwOffset 2 (-3) 1) ∧
  decode 0x15100007FFFF0002 = .ok (.vwRead 1 7 (-1) 2) ∧
  decode 0x2100000200030000 = .ok (.drvM1rows 0 2 3) ∧
  decode 0x2510000000001818 = .ok (.drvModcfg 1 0x18 0x18) ∧
  decode 0x3011000200000000 = .ok (.tgtRender 1 .secondary 2) ∧
  decode 0x3100000000000000 = .ok .scrRender

/-- A step runs the command the next word decodes to. Derived from 60_exceptions.md section 1 (Execute); 30_encoding.md section 1. -/
def Obligations.StepRunsDecodedCommand : Prop :=
  ∀ (s : State) (w : CmdWord) (p : List Byte) (rest : List HostEvent) (i : Instr),
    s.hostIn = .command w p :: rest → decode w = .ok i →
    step s = exec i { s with hostIn := rest, payIn := s.payIn ++ p }

/-- An illegal word ends with ILLEGAL, consumes its payload and changes nothing else. R73. -/
def Obligations.IllegalWordOnlyConsumesItsPayload : Prop :=
  (∀ (s : State) (w : CmdWord) (p : List Byte) (rest : List HostEvent),
    s.hostIn = .command w p :: rest → spellsNone w → payloadLen w s ≤ (s.payIn ++ p).length →
    step s = .next { s with
      hostIn := rest
      payIn := (s.payIn ++ p).drop (payloadLen w s)
      response := some { status := .illegal, data := [] }
      n := s.n + 1 }) ∧
  (∀ w : CmdWord,
    ((Fields.ofWord w).op.toNat = 0x00 ∨ (Fields.ofWord w).op.toNat = 0x0F ∨
      (0x18 ≤ (Fields.ofWord w).op.toNat ∧ (Fields.ofWord w).op.toNat ≤ 0x1F) ∨
      (0x29 ≤ (Fields.ofWord w).op.toNat ∧ (Fields.ofWord w).op.toNat ≤ 0x2F) ∨ 0x33 ≤ (Fields.ofWord w).op.toNat) →
    spellsNone w) ∧
  (∀ (w : CmdWord) (r : OpRow) (k : Nat), r ∈ opcodeTable → (Fields.ofWord w).op = (Fields.ofWord r.pattern).op →
    k < 56 → r.mask.getLsbD k = true → r.pattern.getLsbD k = false → w.getLsbD k = true → spellsNone w)

/-- Nothing is refused, and the only non-answers are the three stuck waits. R226. -/
def Obligations.OnlyTheStuckWaitsGiveNoAnswer : Prop :=
  ∀ s : State,
    ((∃ t, step s = .next t) ∨ step s = .fault .waitCommand ∨ step s = .fault .waitPayload ∨
      step s = .fault .waitBus) ∧
    (step s = .fault .waitCommand ↔ s.hostIn = []) ∧
    (step s = .fault .waitPayload ↔
      ∃ w p rest, s.hostIn = .command w p :: rest ∧ (s.payIn ++ p).length < payloadLen w s) ∧
    (step s = .fault .waitBus → ∃ k, s.busStall = some k ∧ s.busOut.length ≤ k)

/-- A command whose next bus write is never answered is stuck waiting for the bus. Derived from 60_exceptions.md section 2 (stuck states); 70_reset_and_hazards.md section 2 (waits with no bound).
The index form of the unanswered write is the model's choice (log 6). -/
def Obligations.UnansweredWriteLeavesTheBlockWaiting : Prop :=
  ∀ (s : State) (u r slot : Nat) (d : Dev) (v mask : Byte) (half : Half8x8), devOf u = some d →
    (s.busStall = some s.busOut.length →
      exec (.drvPwm u v) s = .fault .waitBus ∧ exec (.drvUpdate u) s = .fault .waitBus ∧
      exec (.drvReset u) s = .fault .waitBus ∧ exec (.drvModcfg u mask v) s = .fault .waitBus ∧
      exec (.drvModlit u mask v) s = .fault .waitBus ∧
      (∀ p q : List Byte, s.payIn = p ++ q → r ≤ 10 → r + p.length ≤ 11 →
        exec (.drvM1rows u r p.length) s = .fault .waitBus ∧ exec (.drvM2rows u r p.length) s = .fault .waitBus) ∧
      (slot < s.par.viewSlots → supported (s.chain slot) .fwd = true →
        exec (.tgtRender u half slot) s = .fault .waitBus)) ∧
    (s.busStall = some s.busOut.length ∨ s.busStall = some (s.busOut.length + 1) →
      exec .scrRender s = .fault .waitBus)

/-- The reset event gives every piece of state its reset value. Derived from 70_reset_and_hazards.md section 1.
The values are those of the table of section 1. The reset input as a host event, and the clauses that the trace of bus writes and the
later host events stay, are the model's choice (log 13); the reference parameters of `State.reset` are log 1, the response
stream held as its last response is log 11. -/
def Obligations.ResetGivesEveryRegisterItsValue : Prop :=
  (∀ (s : State) (rest : List HostEvent), s.hostIn = .reset :: rest → ∃ t, step s = .next t ∧
    (∀ y j, t.memRead y j = 0x00) ∧ t.width = 0 ∧ t.height = 0 ∧ t.par = s.par ∧ t.alphaSet = false ∧
    t.alphaThr = 0x00 ∧ t.slots.length = s.par.viewSlots ∧ (∀ k, t.chain k = []) ∧
    (∀ d, pick t.drv d = { cfg := 0x00, lit := 0x00 }) ∧ (∀ d, pick t.needsReinit d = true) ∧
    t.n = 0 ∧ t.payIn = [] ∧ t.response = none ∧ t.busOut = s.busOut ∧ t.hostIn = rest) ∧
  ((∀ y j, State.reset.memRead y j = 0x00) ∧ State.reset.width = 0 ∧ State.reset.height = 0 ∧
    State.reset.par = Params.reference ∧ State.reset.alphaSet = false ∧ State.reset.alphaThr = 0x00 ∧
    State.reset.slots.length = Params.reference.viewSlots ∧ (∀ k, State.reset.chain k = []) ∧
    (∀ d, pick State.reset.drv d = { cfg := 0x00, lit := 0x00 }) ∧ (∀ d, pick State.reset.needsReinit d = true) ∧
    State.reset.n = 0 ∧ State.reset.payIn = [] ∧ State.reset.response = none)

/-- The reset state of every legal block meets the invariant. Derived from 10_state.md section 7 (legal values); 70_reset_and_hazards.md section 1. -/
def Obligations.ResetMeetsTheInvariant : Prop :=
  (∀ p : Params, p.legal → (State.resetWith p).Inv) ∧ Params.reference.legal

/-- Every step keeps every register at a legal value and the store zero outside the live region. Derived from 10_state.md section 7 (legal values); 20_memory.md section 1 (live region); 00_scope.md section 4. -/
def Obligations.EveryStepKeepsTheInvariant : Prop :=
  ∀ s t : State, s.Inv → step s = .next t → t.Inv

/-- No step changes CAPW, CAPH, a device address or any parameter. Derived from 10_state.md sections 3 and 5 (CAPW, CAPH, DRV[d].ADDR); 00_scope.md section 4. -/
def Obligations.HardwiredRegistersNeverChange : Prop :=
  ∀ s t : State, step s = .next t → t.par = s.par ∧ s.busOut <+: t.busOut

/-- Each register changes only under the commands the spec names for it. Derived from 10_state.md sections 3 to 6 (written by); 92_eei_decisions.md D14. -/
def Obligations.EachRegisterHasItsOwnWriters : Prop :=
  ∀ (i : Instr) (s t : State), exec i s = .next t →
    (t.cv ≠ s.cv → i.mnemonic ∈ ["CV.NEW", "CV.ROWW", "CV.BYTEW", "CV.BITW", "CV.DRAW"]) ∧
    (t.width ≠ s.width ∨ t.height ≠ s.height → i.mnemonic ∈ ["CV.NEW"]) ∧
    (t.alphaSet ≠ s.alphaSet ∨ t.alphaThr ≠ s.alphaThr → i.mnemonic ∈ ["CV.NEW", "CV.ALPHAW"]) ∧
    (t.slots ≠ s.slots → i.mnemonic ∈ ["VW.CLEAR", "VW.FLIP", "VW.OFFSET", "VW.ROT90"]) ∧
    (∀ k, t.chain k ≠ s.chain k → viewSlotOf i = some k) ∧ t.slots.length = s.slots.length ∧
    (∀ d, (pick t.drv d).cfg ≠ (pick s.drv d).cfg →
      i = .scrRender ∨ (i.mnemonic = "DRV.MODCFG" ∧ (driverUnitOf i).bind devOf = some d)) ∧
    (∀ d, (pick t.drv d).lit ≠ (pick s.drv d).lit →
      i = .scrRender ∨ (i.mnemonic = "DRV.MODLIT" ∧ (driverUnitOf i).bind devOf = some d)) ∧
    (t.needsReinit ≠ s.needsReinit → i.mnemonic ∈ ["SCR.RENDER"]) ∧
    t.par = s.par ∧ t.hostIn = s.hostIn ∧ t.busStall = s.busStall

/-- Every status is precise: a command that does not end OK has changed no register. R214. -/
def Obligations.FailedCommandsChangeNoState : Prop :=
  ∀ (i : Instr) (s t : State), exec i s = .next t → ∃ r, t.response = some r ∧ t.n = s.n + 1 ∧ t.hostIn = s.hostIn ∧
    (r.status ≠ .ok → s.sameRegisters t) ∧
    (r.status ≠ .ok → r.status ≠ .transport → s.sameBus t) ∧
    (i = .scrRender → r.status = .ok)

/-- Every command counts once, sends one response and consumes exactly its payload. Derived from 30_encoding.md section 5; 10_state.md section 2 (command index). -/
def Obligations.EveryCommandAnswersOnceAndTakesItsPayload : Prop :=
  ∀ (i : Instr) (s t : State), exec i s = .next t →
    t.n = s.n + 1 ∧ (∃ r, t.response = some r) ∧ commandPayload s i ≤ s.payIn.length ∧
    t.payIn = s.payIn.drop (commandPayload s i)

/-- The status codes, and which commands raise each status. Derived from 60_exceptions.md section 1 (status codes, raised by). -/
def Obligations.StatusesComeOnlyFromTheirCommands : Prop :=
  (∀ (i : Instr) (s t : State) (r : Response), exec i s = .next t → t.response = some r →
    i.mnemonic ∈ raisedBy r.status ∧
    (r.status ≠ .ok → r.status ≠ .transport → r.data = []) ∧ (r.status = .transport → ∃ e, r.data = [e])) ∧
  (∀ (s t : State) (w : CmdWord) (p : List Byte) (rest : List HostEvent), s.hostIn = .command w p :: rest →
    spellsNone w → step s = .next t → t.response = some { status := .illegal, data := [] }) ∧
  [Status.ok, .widthCap, .heightCap, .xOob, .yOob, .unsupported, .transport, .payloadRange, .depthFull, .badUnit,
    .illegal].map Status.code = [0x00, 0x01, 0x02, 0x03, 0x04, 0x05, 0x06, 0x07, 0x08, 0x09, 0x0A]

/-- A response that is not OK carries no data, but TRANSPORT the one byte the bus agent returned. R212. -/
def Obligations.DataOfAFailedCommand : Prop :=
  ∀ (i : Instr) (s t : State) (r : Response), exec i s = .next t → t.response = some r → r.status ≠ .ok →
    (r.status = .transport → ∃ e f d, r.data = [e] ∧
      t.busOut = s.busOut ++ [{ addr := pick s.par.devAddr d, frame := f, answer := .err e }]) ∧
    (r.status ≠ .transport → r.data = [])

/-- On OK a command returns exactly the number of data bytes the opcode map gives it. Derived from 30_encoding.md section 3 (column data); 30_encoding.md section 5. -/
def Obligations.DataLengthOfAFinishedCommand : Prop :=
  ∀ (i : Instr) (s t : State) (data : List Byte), exec i s = .next t →
    t.response = some { status := .ok, data := data } → data.length = okDataLength s i

/-- Every bus write is a frame of 1 to 12 bytes to one of the two devices, answered in the order given. Derived from 20_memory.md section 1 (bus write primitive); 00_scope.md section 4 (fixed widths); 20_memory.md section 7. -/
def Obligations.BusWritesAreFramesAnsweredInOrder : Prop :=
  ∀ (i : Instr) (s t : State), exec i s = .next t → ∃ ws, t.busOut = s.busOut ++ ws ∧
    (∀ w ∈ ws, 1 ≤ w.frame.length ∧ w.frame.length ≤ 12 ∧
      (w.addr = s.par.devAddr.d0 ∨ w.addr = s.par.devAddr.d1)) ∧
    t.busIn = s.busIn.drop ws.length ∧
    (ws.map BusWrite.answer).take s.busIn.length = s.busIn.take ws.length

/-- A driver command makes at most one bus write, and a failed one has changed nothing. R171. -/
def Obligations.DriverCommandsWriteOnceAndLast : Prop :=
  ∀ (i : Instr) (s t : State) (r : Response), isDriver i = true → exec i s = .next t → t.response = some r →
    (∃ ws, t.busOut = s.busOut ++ ws ∧ ws.length ≤ 1) ∧
    (r.status = .transport → s.sameRegisters t) ∧
    (r.status ≠ .ok → r.status ≠ .transport → t.busOut = s.busOut)

/-- CV.NEW: the two capacity refusals, and a zeroed canvas of the given size. R102. -/
def Obligations.CvNewResult : Prop :=
  ∀ (s : State) (w h : Nat),
    (s.par.capW < w → exec (.cvNew w h) s = .next (s.respond .widthCap [])) ∧
    (w ≤ s.par.capW → s.par.capH < h → exec (.cvNew w h) s = .next (s.respond .heightCap [])) ∧
    (s.par.legal → w ≤ s.par.capW → h ≤ s.par.capH → ∃ t, exec (.cvNew w h) s = .next t ∧
      (∀ y j, t.memRead y j = 0x00) ∧ t.width.toNat = w ∧ t.height.toNat = h ∧
      t = { s with
        cv := t.cv, width := t.width, height := t.height, alphaSet := false, alphaThr := 0x00
        response := some { status := .ok, data := [] }, n := s.n + 1 })

/-- CV.WIDTH, CV.HEIGHT, CV.CAPW and CV.CAPH answer their register, high byte first. R103, R104, R105, R106. -/
def Obligations.GeometryReads : Prop :=
  ∀ s : State,
    exec .cvWidth s = .next (s.respond .ok [BitVec.ofNat 8 (s.width.toNat / 256), BitVec.ofNat 8 s.width.toNat]) ∧
    exec .cvHeight s = .next (s.respond .ok [BitVec.ofNat 8 (s.height.toNat / 256), BitVec.ofNat 8 s.height.toNat]) ∧
    exec .cvCapw s = .next (s.respond .ok [BitVec.ofNat 8 (s.par.capW / 256), BitVec.ofNat 8 s.par.capW]) ∧
    exec .cvCaph s = .next (s.respond .ok [BitVec.ofNat 8 (s.par.capH / 256), BitVec.ofNat 8 s.par.capH])

/-- CV.ROW answers the L bytes of a live row, or Y_OOB. R107. -/
def Obligations.CvRowResult : Prop :=
  ∀ (s : State) (y : Int),
    (s.liveRow y → exec (.cvRow y) s =
      .next (s.respond .ok ((List.range ((s.width.toNat + 7) / 8)).map (fun (j : Nat) => s.memRead y (j : Int))))) ∧
    (¬ s.liveRow y → exec (.cvRow y) s = .next (s.respond .yOob []))

/-- CV.ROWW overwrites exactly the L bytes of a live row, or discards its payload with Y_OOB. R108. -/
def Obligations.CvRowwResult : Prop :=
  ∀ (s : State) (y : Int) (p q : List Byte), s.cv.wf = true → s.payIn = p ++ q → p.length = s.rowLen →
    (s.liveRow y → ∃ t, exec (.cvRoww y) s = .next t ∧
      (∀ (j : Nat) (h : j < p.length), t.memRead y (j : Int) = p[j]) ∧
      (∀ a, a < s.addr y 0 ∨ s.addr y 0 + s.rowLen ≤ a → t.cv.read a = s.cv.read a) ∧
      t = { s with cv := t.cv, payIn := q, response := some { status := .ok, data := [] }, n := s.n + 1 }) ∧
    (¬ s.liveRow y → exec (.cvRoww y) s =
      .next { s with payIn := q, response := some { status := .yOob, data := [] }, n := s.n + 1 })

/-- CV.BYTE and CV.BIT answer the stored byte and the stored pixel, and change nothing. Derived from 40_canvas.md sections 4 and 5 (CV.BYTE, CV.BIT, in bounds). -/
def Obligations.ByteAndPixelReads : Prop :=
  ∀ (s : State) (x y : Int), s.liveRow y →
    (s.liveByte x → exec (.cvByte x y) s = .next (s.respond .ok [s.memRead y x])) ∧
    (s.livePixel x → exec (.cvBit x y) s = .next (s.respond .ok
      [if (s.memRead y (x / 8)).getLsbD (7 - (x % 8).toNat) then 0x01 else 0x00]))

/-- CV.BYTEW writes exactly the one byte. Derived from 40_canvas.md section 4 (CV.BYTEW, in bounds); 20_memory.md section 1. -/
def Obligations.CvBytewResult : Prop :=
  ∀ (s : State) (bx y : Int) (v : Byte), s.cv.wf = true → s.liveByte bx → s.liveRow y →
    ∃ t, exec (.cvBytew bx y v) s = .next t ∧ t.memRead y bx = v ∧
      (∀ a, a ≠ s.addr y bx → t.cv.read a = s.cv.read a) ∧
      t = { s with cv := t.cv, response := some { status := .ok, data := [] }, n := s.n + 1 }

/-- CV.BITW writes exactly the one pixel. Derived from 40_canvas.md section 5 (CV.BITW, in bounds); 20_memory.md section 1 (canvas bit space). -/
def Obligations.CvBitwResult : Prop :=
  ∀ (s : State) (x y : Int) (v : Bool), s.cv.wf = true → s.livePixel x → s.liveRow y →
    ∃ t, exec (.cvBitw x y v) s = .next t ∧ pixelWritten s t x y v ∧
      t = { s with cv := t.cv, response := some { status := .ok, data := [] }, n := s.n + 1 }

/-- The bounds checks: which status each out-of-bounds access gets, in the order of OOB_ORDER. R100. -/
def Obligations.OutOfBoundsRefusals : Prop :=
  (∀ (s : State) (i : Instr) (x y : Int) (limit : Nat), columnOf s i = some (x, limit, y) →
    (¬ (0 ≤ x ∧ x < (limit : Int)) → s.liveRow y → exec i s = .next (s.respond .xOob [])) ∧
    ((0 ≤ x ∧ x < (limit : Int)) → ¬ s.liveRow y → exec i s = .next (s.respond .yOob [])) ∧
    (¬ (0 ≤ x ∧ x < (limit : Int)) → ¬ s.liveRow y → s.par.oobOrder = .xFirst →
      exec i s = .next (s.respond .xOob [])) ∧
    (¬ (0 ≤ x ∧ x < (limit : Int)) → ¬ s.liveRow y → s.par.oobOrder = .yFirst →
      exec i s = .next (s.respond .yOob []))) ∧
  (∀ (s : State) (y : Int), ¬ s.liveRow y →
    exec (.cvRow y) s = .next (s.respond .yOob []) ∧
    (s.rowLen ≤ s.payIn.length → exec (.cvRoww y) s =
      .next { s with
        payIn := s.payIn.drop s.rowLen, response := some { status := .yOob, data := [] }, n := s.n + 1 }))

/-- CV.ALPHAW sets or clears the threshold, CV.ALPHA answers it. R113, R114. -/
def Obligations.AlphaThresholdReadAndWrite : Prop :=
  ∀ (s : State) (thr : Byte),
    exec (.cvAlphaw true thr) s = .next { s with
      alphaSet := true, alphaThr := thr, response := some { status := .ok, data := [] }, n := s.n + 1 } ∧
    exec (.cvAlphaw false thr) s = .next { s with
      alphaSet := false, alphaThr := 0x00, response := some { status := .ok, data := [] }, n := s.n + 1 } ∧
    exec .cvAlpha s = .next (s.respond .ok [if s.alphaSet then 0x01 else 0x00, s.alphaThr])

/-- CV.DRAW sets a live pixel to alpha > threshold, drops a pixel outside, and writes a free bit with no known threshold. R115. -/
def Obligations.CvDrawResult : Prop :=
  ∀ (s : State) (x y : Int) (alpha : Byte),
    (¬ (s.livePixel x ∧ s.liveRow y) → exec (.cvDraw x y alpha) s = .next (s.respond .ok [])) ∧
    (s.cv.wf = true → s.livePixel x → s.liveRow y →
      (∀ thr, (s.alphaSet = true ∧ thr = s.alphaThr) ∨ (s.alphaSet = false ∧ s.par.alphaUnset = some thr) →
        ∃ t, exec (.cvDraw x y alpha) s = .next t ∧ pixelWritten s t x y (decide (alpha.toNat > thr.toNat)) ∧
          t = { s with cv := t.cv, response := some { status := .ok, data := [] }, n := s.n + 1 }) ∧
      (s.alphaSet = false → s.par.alphaUnset = none →
        ∃ t v, exec (.cvDraw x y alpha) s = .next t ∧ pixelWritten s t x y v ∧
          t = { s with
            cv := t.cv, response := some { status := .ok, data := [] }, n := s.n + 1, draws := s.draws + 1 }))

/-- A pixel written reads back, as a pixel and as its bit of the byte. R116. -/
def Obligations.PixelWriteReadsBack : Prop :=
  ∀ (s : State) (x y : Int) (v : Bool), s.cv.wf = true → s.livePixel x → s.liveRow y →
    ∃ t u w b, exec (.cvBitw x y v) s = .next t ∧
      exec (.cvBit x y) t = .next u ∧ u.response = some { status := .ok, data := [if v then 0x01 else 0x00] } ∧
      exec (.cvByte (x / 8) y) t = .next w ∧ w.response = some { status := .ok, data := [b] } ∧
      b.getLsbD (7 - (x % 8).toNat) = v

/-- Writing one live pixel leaves every other live pixel as it reads. Derived from 20_memory.md section 1 (canvas bit space, mixed access). -/
def Obligations.PixelWritesAreIndependent : Prop :=
  ∀ (s : State) (x y x' y' : Int) (v : Bool), s.Inv → s.livePixel x → s.liveRow y → s.livePixel x' → s.liveRow y' →
    (x', y') ≠ (x, y) →
    ∃ t u w, exec (.cvBitw x y v) s = .next t ∧ exec (.cvBit x' y') t = .next u ∧
      exec (.cvBit x' y') s = .next w ∧ u.response = w.response

/-- Store bytes outside the live region are zero, and two store positions never share an address. Derived from 20_memory.md section 1 (live region). -/
def Obligations.StoreIsZeroOutsideTheLiveRegion : Prop :=
  ∀ (s : State) (y j y' j' : Int), s.Inv → 0 ≤ y → 0 ≤ j → j < (s.stride : Int) →
    (¬ (s.liveRow y ∧ s.liveByte j) → s.memRead y j = 0x00) ∧
    (0 ≤ y' → 0 ≤ j' → j' < (s.stride : Int) → s.addr y j = s.addr y' j' → y = y' ∧ j = j')

/-- VW.CLEAR makes a slot the bare canvas. R145. -/
def Obligations.VwClearResult : Prop :=
  ∀ (s : State) (slot : Nat), s.slots.length = s.par.viewSlots → slot < s.par.viewSlots →
    ∃ t, exec (.vwClear slot) s = .next t ∧ t.chain slot = [] ∧ (∀ k, k ≠ slot → t.chain k = s.chain k) ∧
      t.slots.length = s.slots.length ∧
      t = { s with slots := t.slots, response := some { status := .ok, data := [] }, n := s.n + 1 }

/-- VW.FLIP, VW.OFFSET and VW.ROT90 append their stage, or answer DEPTH_FULL. R146, R147, R148. -/
def Obligations.VwAppendResult : Prop :=
  ∀ (s : State) (slot : Nat) (g : Stage) (i : Instr),
    (i = .vwFlip slot ∧ g = .flip) ∨ (∃ dx dy, i = .vwOffset slot dx dy ∧ g = .offset dx dy) ∨
      (i = .vwRot90 slot ∧ g = .rot90) →
    s.slots.length = s.par.viewSlots → slot < s.par.viewSlots →
    ((s.chain slot).length < s.par.viewDepth → ∃ t, exec i s = .next t ∧
      t.chain slot = s.chain slot ++ [g] ∧ (∀ k, k ≠ slot → t.chain k = s.chain k) ∧
      t.slots.length = s.slots.length ∧
      t = { s with slots := t.slots, response := some { status := .ok, data := [] }, n := s.n + 1 }) ∧
    ((s.chain slot).length = s.par.viewDepth → exec i s = .next (s.respond .depthFull []))

/-- VW.BITSLEN answers WIDTH for every chain. R149, R142. -/
def Obligations.VwBitslenResult : Prop :=
  ∀ (s : State) (slot : Nat), slot < s.par.viewSlots →
    exec (.vwBitslen slot) s =
      .next (s.respond .ok [BitVec.ofNat 8 (s.width.toNat / 256), BitVec.ofNat 8 s.width.toNat])

/-- VW.READ answers the chain's bytes at start .. end-1, or UNSUPPORTED. Derived from 41_views.md section 2 (VW.READ); 41_views.md section 3 (pointwise form). -/
def Obligations.VwReadResult : Prop :=
  ∀ (s : State) (slot : Nat) (row a b : Int), slot < s.par.viewSlots →
    (supported (s.chain slot) .fwd = true → exec (.vwRead slot row a b) s = .next (s.respond .ok
      ((List.range (b - a).toNat).map (fun (k : Nat) => point s (s.chain slot) row (a + (k : Int)))))) ∧
    (supported (s.chain slot) .fwd = false → exec (.vwRead slot row a b) s = .next (s.respond .unsupported []))

/-- VW.READREV answers the chain's bytes bit-reversed from end-1 down to start, or UNSUPPORTED. Derived from 41_views.md section 2 (VW.READREV); 41_views.md section 3 (pointwise form). -/
def Obligations.VwReadrevResult : Prop :=
  ∀ (s : State) (slot : Nat) (row a b : Int), slot < s.par.viewSlots →
    (supported (s.chain slot) .rev = true → exec (.vwReadrev slot row a b) s = .next (s.respond .ok
      ((List.range (b - a).toNat).map (fun (k : Nat) =>
        bitrev8 (point s (s.chain slot) row (b - 1 - (k : Int))))))) ∧
    (supported (s.chain slot) .rev = false → exec (.vwReadrev slot row a b) s = .next (s.respond .unsupported []))

/-- BITIDX answers floor(b / 8) and b mod 8. R144, R152. -/
def Obligations.BitidxResult : Prop :=
  ∀ (s : State) (b : Int),
    byteAndBit b = (b / 8, b % 8) ∧ (byteAndBit b).1 * 8 + (byteAndBit b).2 = b ∧
    0 ≤ (byteAndBit b).2 ∧ (byteAndBit b).2 ≤ 7 ∧
    exec (.bitidx b) s =
      .next (s.respond .ok [BitVec.ofInt 8 (b / 8 / 256), BitVec.ofInt 8 (b / 8), BitVec.ofInt 8 (b % 8)])

/-- A slot or device operand that names none ends with BAD_UNIT. Derived from 60_exceptions.md section 1 (the prologue). -/
def Obligations.BadUnitRefusals : Prop :=
  ∀ (s : State) (i : Instr),
    (∀ slot, viewSlotOf i = some slot → s.par.viewSlots ≤ slot → exec i s = .next (s.respond .badUnit [])) ∧
    (∀ u, driverUnitOf i = some u → 1 < u → commandPayload s i ≤ s.payIn.length →
      exec i s = .next { s with
        payIn := s.payIn.drop (commandPayload s i)
        response := some { status := .badUnit, data := [] }
        n := s.n + 1 }) ∧
    (∀ u half slot, i = .tgtRender u half slot → 1 < u ∨ s.par.viewSlots ≤ slot →
      exec i s = .next (s.respond .badUnit []))

/-- bitrev8 moves bit i to bit 7 - i, is its own inverse and keeps 0. R131. -/
def Obligations.BitReversal : Prop :=
  (∀ (v : Byte) (k : Nat), k < 8 → (bitrev8 v).getLsbD k = v.getLsbD (7 - k)) ∧
  (∀ v : Byte, bitrev8 (bitrev8 v) = v) ∧ bitrev8 0x00 = 0x00

/-- Forward and reverse reads of every chain are its pointwise bytes. R153. -/
def Obligations.ReadsAgreeWithThePointwiseForm : Prop :=
  ∀ (s : State) (c : List Stage),
    (∀ r j : Int, point s [] r j = s.canvasByte r j ∧
      point s (c ++ [.flip]) r j = bitrev8 (point s c r (-1 - j)) ∧
      (∀ dx dy, point s (c ++ [.offset dx dy]) r j = point s c (r - dy) (j - dx)) ∧
      (∀ k < 8, (point s (c ++ [.rot90]) r j).getLsbD k =
        (point s c (8 * j + (k : Int)) (r / 8)).getLsbD (7 - (r % 8).toNat))) ∧
    (∀ row a b : Int, supported c .fwd = true → fwd s c row a b = (intRange a b).map (point s c row)) ∧
    (∀ row a b : Int, supported c .rev = true →
      rev s c row a b = (intRange a b).reverse.map (fun j => bitrev8 (point s c row j)))

/-- A supported read has exactly max(0, end - start) bytes. R133. -/
def Obligations.ReadsHaveTheirRangesLength : Prop :=
  ∀ (s : State) (c : List Stage) (row a b : Int),
    (supported c .fwd = true → ((fwd s c row a b).length : Int) = max 0 (b - a)) ∧
    (supported c .rev = true → ((rev s c row a b).length : Int) = max 0 (b - a))

/-- Every chain over a canvas without live pixels reads 0x00 everywhere. Derived from 41_views.md section 3 (zero outside). -/
def Obligations.EmptyCanvasReadsZeroThroughEveryChain : Prop :=
  ∀ (s : State) (c : List Stage) (r j : Int), s.width.toNat = 0 ∨ s.height.toNat = 0 → point s c r j = 0x00

/-- Flip involution, offset composition, and flip against symmetric offset. R155, R156, R157. -/
def Obligations.ViewLawsOfFlipAndOffset : Prop :=
  ∀ (s : State) (c : List Stage),
    (∀ y a b : Int, supported c .fwd = true → fwd s (c ++ [.flip, .flip]) y a b = fwd s c y a b) ∧
    (∀ a1 b1 a2 b2 r j : Int,
      point s (c ++ [.offset a1 b1, .offset a2 b2]) r j = point s (c ++ [.offset (a1 + a2) (b1 + b2)]) r j) ∧
    (∀ k r j : Int,
      point s (c ++ [.flip, .offset k 0]) r j = point s (c ++ [.offset (-k) 0, .flip]) r j ∧
      point s (c ++ [.flip, .offset k 0]) r j = bitrev8 (point s c r (k - 1 - j)))

/-- Four ROT90 stages read an 8x8 canvas back, and two turn it by 180 degrees. R158. -/
def Obligations.FourRotationsAreTheIdentity : Prop :=
  ∀ (s : State) (y : Int), s.height.toNat = 8 → s.rowLen = 1 → 0 ≤ y → y ≤ 7 →
    point s [.rot90, .rot90, .rot90, .rot90] y 0 = s.canvasByte y 0 ∧
    point s [.rot90, .rot90] y 0 = bitrev8 (s.canvasByte (7 - y) 0) ∧
    supported [.rot90, .rot90, .rot90, .rot90] .fwd = true

/-- DRV.PWM, DRV.UPDATE and DRV.RESET send their one frame and end with its answer. R161, R164, R165. -/
def Obligations.SingleRegisterDriverWrites : Prop :=
  ∀ (s : State) (u : Nat) (d : Dev) (i : Instr) (frame : List Byte), devOf u = some d → s.answeredFor 1 →
    (∃ v : Byte, i = .drvPwm u v ∧ frame = [0x19, BitVec.ofNat 8 (128 + v.toNat % 128)]) ∨
      (i = .drvUpdate u ∧ frame = [0x0C, 0x00]) ∨ (i = .drvReset u ∧ frame = [0xFF, 0x00]) →
    (s.nextAnswer = .ok → exec i s = .next ((s.busWrite d frame).respond .ok [])) ∧
    (∀ e, s.nextAnswer = .err e → exec i s = .next ((s.busWrite d frame).respond .transport [e])) ∧
    (s.busWrite d frame).busOut =
      s.busOut ++ [{ addr := pick s.par.devAddr d, frame := frame, answer := s.nextAnswer }] ∧
    s.sameRegisters (s.busWrite d frame)

/-- DRV.M1ROWS and DRV.M2ROWS send their bytes from register base + start_row, or PAYLOAD_RANGE. R162, R163. -/
def Obligations.MatrixWindowWrites : Prop :=
  ∀ (s : State) (u r : Nat) (d : Dev) (p q : List Byte) (i : Instr) (base : Nat), devOf u = some d →
    s.payIn = p ++ q → (i = .drvM1rows u r p.length ∧ base = 1) ∨ (i = .drvM2rows u r p.length ∧ base = 14) →
    (r ≤ 10 → r + p.length ≤ 11 → s.answeredFor 1 →
      (s.nextAnswer = .ok → exec i s =
        .next ((State.busWrite { s with payIn := q } d (BitVec.ofNat 8 (base + r) :: p)).respond .ok [])) ∧
      (∀ e, s.nextAnswer = .err e → exec i s =
        .next ((State.busWrite { s with payIn := q } d (BitVec.ofNat 8 (base + r) :: p)).respond .transport [e]))) ∧
    (10 < r ∨ 11 < r + p.length → exec i s =
      .next { s with payIn := q, response := some { status := .payloadRange, data := [] }, n := s.n + 1 })

/-- DRV.MODCFG and DRV.MODLIT send the masked byte and cache it on ok only. R166, R167. -/
def Obligations.CachedByteModification : Prop :=
  ∀ (s : State) (u : Nat) (d : Dev) (mask value : Byte), devOf u = some d → s.answeredFor 1 →
    (∃ new : Byte, (∀ k < 8, new.getLsbD k =
        if mask.getLsbD k then value.getLsbD k else (pick s.drv d).cfg.getLsbD k) ∧
      (s.nextAnswer = .ok → exec (.drvModcfg u mask value) s =
        .next (((s.busWrite d [0x00, new]).setCfg d new).respond .ok [])) ∧
      (∀ e, s.nextAnswer = .err e → exec (.drvModcfg u mask value) s =
        .next ((s.busWrite d [0x00, new]).respond .transport [e]))) ∧
    (∃ new : Byte, (∀ k < 8, new.getLsbD k =
        if mask.getLsbD k then value.getLsbD k else (pick s.drv d).lit.getLsbD k) ∧
      (s.nextAnswer = .ok → exec (.drvModlit u mask value) s =
        .next (((s.busWrite d [0x0D, new]).setLit d new).respond .ok [])) ∧
      (∀ e, s.nextAnswer = .err e → exec (.drvModlit u mask value) s =
        .next ((s.busWrite d [0x0D, new]).respond .transport [e])))

/-- DRV.CFG and DRV.LIT answer the driver's cached bytes without a bus write. R168, R169. -/
def Obligations.CachedByteReads : Prop :=
  ∀ (s : State) (u : Nat) (d : Dev), devOf u = some d →
    exec (.drvCfg u) s = .next (s.respond .ok [(pick s.drv d).cfg]) ∧
    exec (.drvLit u) s = .next (s.respond .ok [(pick s.drv d).lit])

/-- A field setter keeps every bit outside its field and is idempotent on the cache, sending each time. R170. -/
def Obligations.FieldSettersPreserveAndRepeat : Prop :=
  ∀ (ps : Pseudo) (u : Nat) (mask : Byte) (lighting : Bool), setterField ps = some (u, mask, lighting) →
    ∃ i, ps.expand = [i] ∧ ∀ (s : State) (d : Dev) (rest : List BusAnswer), devOf u = some d →
      s.answeredFor 2 → s.busIn = .ok :: .ok :: rest →
      ∃ t1 t2, exec i s = .next t1 ∧ exec i t1 = .next t2 ∧ t2.drv = t1.drv ∧
        t1.busOut.length = s.busOut.length + 1 ∧ t2.busOut.length = s.busOut.length + 2 ∧
        (∀ d', d' ≠ d → pick t1.drv d' = pick s.drv d') ∧
        (if lighting then
          (pick t1.drv d).cfg = (pick s.drv d).cfg ∧ (pick t1.drv d).lit &&& ~~~mask = (pick s.drv d).lit &&& ~~~mask
        else
          (pick t1.drv d).lit = (pick s.drv d).lit ∧ (pick t1.drv d).cfg &&& ~~~mask = (pick s.drv d).cfg &&& ~~~mask)

/-- TGT.RENDER sends the first byte of rows 0 to 7 of a slot's chain to one half's window. R190, R191. -/
def Obligations.TgtRenderResult : Prop :=
  ∀ (s : State) (u slot : Nat) (d : Dev) (half : Half8x8) (base : Byte), devOf u = some d → slot < s.par.viewSlots →
    (half = .primary ∧ base = 0x01) ∨ (half = .secondary ∧ base = 0x0E) →
    (supported (s.chain slot) .fwd = true → s.answeredFor 1 →
      (s.nextAnswer = .ok → exec (.tgtRender u half slot) s = .next ((s.busWrite d
        (base :: (List.range 8).map (fun (row : Nat) => point s (s.chain slot) (row : Int) 0))).respond .ok [])) ∧
      (∀ e, s.nextAnswer = .err e → exec (.tgtRender u half slot) s = .next ((s.busWrite d
        (base :: (List.range 8).map (fun (row : Nat) => point s (s.chain slot) (row : Int) 0))).respond
          .transport [e]))) ∧
    (supported (s.chain slot) .fwd = false →
      exec (.tgtRender u half slot) s = .next (s.respond .unsupported []))

/-- SCR.RENDER: device 0 then device 1, each by its reinit and frame sequence, always OK. R193, R194, R195. -/
def Obligations.ScrRenderFollowsTheDeviceSequences : Prop :=
  ∀ s : State, s.answeredFor 12 → ∃ t ws0 ws1, exec .scrRender s = .next t ∧
    t.response = some { status := .ok, data := [] } ∧ t.n = s.n + 1 ∧ t.busOut = s.busOut ++ ws0 ++ ws1 ∧
    DeviceTrace s .d0 ws0 t.needsReinit.d0 t.drv.d0 ∧ DeviceTrace s .d1 ws1 t.needsReinit.d1 t.drv.d1 ∧
    2 ≤ (ws0 ++ ws1).length ∧ (ws0 ++ ws1).length ≤ 12 ∧
    t = { s with
      drv := t.drv, needsReinit := t.needsReinit, response := t.response, n := t.n
      busOut := t.busOut, busIn := t.busIn, draws := t.draws }

/-- After SCR.RENDER a device's flag is clear exactly when all its writes answered ok. Derived from 43_target_screen.md section 3 (recovery). -/
def Obligations.ScreenFlagTellsWhetherAllWritesWereAnsweredOk : Prop :=
  ∀ s : State, s.answeredFor 12 → ∃ t ws0 ws1, exec .scrRender s = .next t ∧ t.busOut = s.busOut ++ ws0 ++ ws1 ∧
    (∀ w ∈ ws0, w.addr = s.par.devAddr.d0) ∧ (∀ w ∈ ws1, w.addr = s.par.devAddr.d1) ∧
    (t.needsReinit.d0 = false ↔ ∀ w ∈ ws0, w.answer = .ok) ∧ (t.needsReinit.d1 = false ↔ ∀ w ∈ ws1, w.answer = .ok)

/-- One SCR.RENDER with a bus that answers ok heals both devices, by the full sequence on a flagged one. Derived from 43_target_screen.md section 3 (recovery); 70_reset_and_hazards.md section 1 (cold boot). -/
def Obligations.ScreenHealsWhenTheBusAnswersOk : Prop :=
  (∀ (s : State) (rest : List BusAnswer), s.answeredFor 12 → s.busIn = List.replicate 12 .ok ++ rest →
    ∃ t, exec .scrRender s = .next t ∧ (∀ d, pick t.needsReinit d = false) ∧
      (t.busOut.drop s.busOut.length).map (fun w => (w.addr, w.frame)) =
        ([Dev.d0, Dev.d1].map (fun d =>
          ((if pick s.needsReinit d then reinitFrames (pick s.drv d) else []) ++ renderFrames s d).map
            (fun f => (pick s.par.devAddr d, f)))).flatten) ∧
  (∀ (p : Params) (d : Dev), pick (State.resetWith p).needsReinit d = true)

/-- SCR.REINIT answers the two recovery flags in bits 0 and 1. R196. -/
def Obligations.ScrReinitResult : Prop :=
  ∀ s : State, exec .scrReinit s = .next (s.respond .ok
    [BitVec.ofNat 8 ((if s.needsReinit.d0 then 1 else 0) + (if s.needsReinit.d1 then 2 else 0))])

/-- The Screen's primary bytes are mirrored canvas bytes, its secondary bytes a transpose, padding bits as stored (log 20). Derived from 43_target_screen.md section 3 (what each half shows); 41_views.md section 1.
The first two clauses on `q` are the closed form of section 3. The last one takes in the padding columns of a live byte
(8k + row at or above WIDTH), where that closed form gives 0 and 41_views.md R134 and R140 give the stored bit: there it is
the model's reading (log 20). -/
def Obligations.WhatEachHalfShows : Prop :=
  ∀ (s : State) (k : Int) (row y : Nat), row < 8 → y < 8 →
    (pull s (primChain k))[row]? = some (bitrev8 (s.canvasByte (row : Int) (k - 1))) ∧
    ∃ q, (pull s (secChain k))[row]? = some q ∧
      (s.livePixel (8 * k + (row : Int)) → s.liveRow (y : Int) → q.getLsbD y =
        (s.memRead (y : Int) ((8 * k + (row : Int)) / 8)).getLsbD (7 - ((8 * k + (row : Int)) % 8).toNat)) ∧
      (¬ (s.liveRow (y : Int) ∧ s.liveByte k) → q.getLsbD y = false) ∧
      q.getLsbD y = (s.canvasByte (y : Int) k).getLsbD (7 - row)

/-- A command finishes when every write it makes is answered, and waits for the bus when one is not. Derived from 60_exceptions.md section 2 (stuck states); 70_reset_and_hazards.md section 2 (waits with no bound); 20_memory.md section 1 (bus write primitive).
The index form of the unanswered write is the model's choice (log 6). -/
def Obligations.BusCommandsFinishOrWait : Prop :=
  ∀ (i : Instr) (s t : State), exec i { s with busStall := none } = .next t →
    (s.answeredFor (t.busOut.length - s.busOut.length) → exec i s = .next { t with busStall := s.busStall }) ∧
    (¬ s.answeredFor (t.busOut.length - s.busOut.length) → exec i s = .fault .waitBus)
end

