-- ==== Sys2Proof/Laws/Encoding.lean ====
section
/-! SUPPORT. Words and their fields are the same thing, and a mask acts field by field. -/

namespace Sys2Proof

/-- The fields two field lists share, bit by bit. -/
def Fields.and (f g : Fields) : Fields where
  op := f.op &&& g.op
  u := f.u &&& g.u
  k := f.k &&& g.k
  a := f.a &&& g.a
  b := f.b &&& g.b
  ch := f.ch &&& g.ch
  cl := f.cl &&& g.cl

theorem Fields.toWord_and (f g : Fields) : f.toWord &&& g.toWord = (f.and g).toWord := by
  simp only [Fields.toWord, Fields.and]
  erw [BitVec.and_append, BitVec.and_append, BitVec.and_append, BitVec.and_append, BitVec.and_append, BitVec.and_append]

/-- A field of an append: the low part. -/
theorem extract_append_low {m n : Nat} (x : BitVec m) (y : BitVec n) : (x ++ y).extractLsb' 0 n = y := by
  ext i hi
  simp only [BitVec.getElem_extractLsb', Nat.zero_add]
  rw [BitVec.getLsbD_append, if_pos hi, BitVec.getLsbD_eq_getElem hi]

/-- A field of an append: a field of the high part. -/
theorem extract_append_high {m n : Nat} (x : BitVec m) (y : BitVec n) (start len : Nat) :
    (x ++ y).extractLsb' (n + start) len = x.extractLsb' start len := by
  ext i hi
  simp only [BitVec.getElem_extractLsb']
  rw [BitVec.getLsbD_append, if_neg (by omega)]
  congr 1
  omega

theorem extract_all {n : Nat} (x : BitVec n) : x.extractLsb' 0 n = x := by
  ext i hi
  simp

/-- The fields of the word of some fields are those fields. -/
@[simp] theorem Fields.ofWord_toWord (f : Fields) : Fields.ofWord f.toWord = f := by
  obtain ⟨op, u, k, a, b, ch, cl⟩ := f
  simp only [Fields.ofWord, Fields.toWord, Fields.mk.injEq]
  refine ⟨?_, ?_, ?_, ?_, ?_, ?_, ?_⟩
  · exact (extract_append_high _ cl 48 8).trans <| (extract_append_high _ ch 40 8).trans <|
      (extract_append_high _ b 24 8).trans <| (extract_append_high _ a 8 8).trans <|
      (extract_append_high _ k 4 8).trans <| (extract_append_high _ u 0 8).trans (extract_all op)
  · exact (extract_append_high _ cl 44 4).trans <| (extract_append_high _ ch 36 4).trans <|
      (extract_append_high _ b 20 4).trans <| (extract_append_high _ a 4 4).trans <|
      (extract_append_high _ k 0 4).trans (extract_append_low op u)
  · exact (extract_append_high _ cl 40 4).trans <| (extract_append_high _ ch 32 4).trans <|
      (extract_append_high _ b 16 4).trans <| (extract_append_high _ a 0 4).trans (extract_append_low _ k)
  · exact (extract_append_high _ cl 24 16).trans <| (extract_append_high _ ch 16 16).trans <|
      (extract_append_high _ b 0 16).trans (extract_append_low _ a)
  · exact (extract_append_high _ cl 8 16).trans <| (extract_append_high _ ch 0 16).trans (extract_append_low _ b)
  · exact (extract_append_high _ cl 0 8).trans (extract_append_low _ ch)
  · exact extract_append_low _ cl

/-- Two neighbouring fields are one field. -/
theorem extract_join {n : Nat} (w : BitVec n) (start m k : Nat) :
    w.extractLsb' (start + k) m ++ w.extractLsb' start k = w.extractLsb' start (m + k) := by
  ext i hi
  simp only [BitVec.getElem_append, BitVec.getElem_extractLsb']
  split
  · rfl
  · congr 1; omega

/-- The word of a word's fields is that word. -/
@[simp] theorem Fields.toWord_ofWord (w : CmdWord) : (Fields.ofWord w).toWord = w := by
  simp only [Fields.ofWord, Fields.toWord]
  rw [extract_join w 52 8 4, extract_join w 48 12 4, extract_join w 32 16 16, extract_join w 16 32 16,
    extract_join w 8 48 8, extract_join w 0 56 8]
  exact extract_all w

theorem Fields.toWord_inj (f g : Fields) (h : f.toWord = g.toWord) : f = g := by
  rw [← Fields.ofWord_toWord f, h, Fields.ofWord_toWord]

/-- A word spells a row exactly when its fields, masked field by field, are the row's. -/
theorem OpRow.spells_iff (r : OpRow) (w : CmdWord) :
    r.spells w = true ↔ (Fields.ofWord w).and (Fields.ofWord r.mask) = Fields.ofWord r.pattern := by
  unfold OpRow.spells
  rw [beq_iff_eq]
  constructor
  · intro h
    apply Fields.toWord_inj
    rw [← Fields.toWord_and, Fields.toWord_ofWord, Fields.toWord_ofWord, Fields.toWord_ofWord, h]
  · intro h
    have := congrArg Fields.toWord h
    rwa [← Fields.toWord_and, Fields.toWord_ofWord, Fields.toWord_ofWord, Fields.toWord_ofWord] at this

end Sys2Proof
end

