-- ==== Sys2Proof/Laws/Memory.lean ====
section
/-! SUPPORT. The canvas store as a canonical list: a read after a write gives the value written, a write leaves every other
address alone, every write keeps the canonical form, and equal contents are equal data. -/

namespace Sys2Proof.Machine

theorem Memory.read_cons (m : Memory) (a b : Nat) (v : Byte) (h : Memory.read m a = Config.unlistedByte) :
    (Memory.cons a v m).read b = if a = b then v else m.read b := by
  unfold Memory.cons
  split
  · next hv =>
    split
    · next hab => rw [← hab, h, hv]
    · rfl
  · rfl

theorem Memory.rising_cons (k : Nat) (x : Byte) (m : Memory) :
    Memory.rising ((k, x) :: m) = true ↔ (∀ c ∈ m, k < c.1) ∧ Memory.rising m = true := by
  induction m generalizing k x with
  | nil => simp [Memory.rising]
  | cons c rest ih =>
    obtain ⟨k', x'⟩ := c
    have hk := ih k' x'
    simp only [Memory.rising, Bool.and_eq_true, decide_eq_true_eq, List.mem_cons, forall_eq_or_imp]
    constructor
    · rintro ⟨h1, h2⟩
      exact ⟨⟨h1, fun c hc => Nat.lt_trans h1 ((hk.mp h2).1 c hc)⟩, h2⟩
    · rintro ⟨⟨h1, _⟩, h2⟩
      exact ⟨h1, h2⟩

/-- Everything the canonical form says of a non-empty list. -/
theorem Memory.wf_cons (k : Nat) (x : Byte) (m : Memory) :
    Memory.wf ((k, x) :: m) = true ↔
      (∀ c ∈ m, k < c.1) ∧ x ≠ Config.unlistedByte ∧ Memory.wf m = true := by
  unfold Memory.wf
  rw [Bool.and_eq_true, Memory.rising_cons]
  simp only [List.all_cons, Bool.and_eq_true, bne_iff_ne, ne_eq]
  tauto

/-- An address below every listed one is unlisted. -/
theorem Memory.read_below (m : Memory) (a : Nat) (h : ∀ c ∈ m, a < c.1) : m.read a = Config.unlistedByte := by
  induction m with
  | nil => rfl
  | cons c rest ih =>
    obtain ⟨k, x⟩ := c
    have hk : a < k := h (k, x) (by simp)
    rw [Memory.read, if_neg (by omega)]
    exact ih (fun c hc => h c (by simp [hc]))

/-- A read after a write: the value written at its address, what was there elsewhere. -/
theorem Memory.read_write (m : Memory) (a b : Nat) (v : Byte) (h : m.wf = true) :
    (m.write a v).read b = if a = b then v else m.read b := by
  induction m with
  | nil => exact Memory.read_cons [] a b v rfl
  | cons c rest ih =>
    obtain ⟨k, x⟩ := c
    obtain ⟨hlt, _, hrest⟩ := (Memory.wf_cons k x rest).mp h
    unfold Memory.write
    split
    · next hak =>
      refine Memory.read_cons _ a b v (Memory.read_below _ a ?_)
      intro c hc
      rcases List.mem_cons.mp hc with rfl | hc
      · exact hak
      · exact Nat.lt_trans hak (hlt c hc)
    · split
      · next hak =>
        subst hak
        rw [Memory.read_cons rest a b v (Memory.read_below rest a hlt)]
        by_cases hab : a = b
        · simp [hab]
        · simp [hab, Memory.read]
      · next hak =>
        rw [Memory.read, Memory.read, ih hrest]
        by_cases hkb : k = b
        · simp [hkb]
          intro hab
          exact absurd (hab.trans hkb.symm) hak
        · simp [hkb]

@[simp] theorem Memory.read_write_same (m : Memory) (a : Nat) (v : Byte) (h : m.wf = true) :
    (m.write a v).read a = v := by simp [Memory.read_write m a a v h]

theorem Memory.read_write_other (m : Memory) (a b : Nat) (v : Byte) (h : m.wf = true) (hab : a ≠ b) :
    (m.write a v).read b = m.read b := by simp [Memory.read_write m a b v h, hab]

theorem Memory.mem_cons (m : Memory) (a : Nat) (v : Byte) (c : Host.Cell) (h : c ∈ Memory.cons a v m) :
    c = (a, v) ∨ c ∈ m := by
  unfold Memory.cons at h
  split at h
  · exact .inr h
  · exact List.mem_cons.mp h

/-- A write lists nothing but its own address and what was listed. -/
theorem Memory.mem_write (m : Memory) (a : Nat) (v : Byte) (c : Host.Cell) (h : c ∈ m.write a v) :
    c = (a, v) ∨ c ∈ m := by
  induction m with
  | nil => exact Memory.mem_cons [] a v c h
  | cons d rest ih =>
    obtain ⟨k, x⟩ := d
    unfold Memory.write at h
    split at h
    · exact Memory.mem_cons _ a v c h
    · split at h
      · rcases Memory.mem_cons _ a v c h with h | h
        · exact .inl h
        · exact .inr (List.mem_cons_of_mem _ h)
      · rcases List.mem_cons.mp h with h | h
        · exact .inr (by simp [h])
        · rcases ih h with h | h
          · exact .inl h
          · exact .inr (List.mem_cons_of_mem _ h)

theorem Memory.wf_cons_of_below (m : Memory) (a : Nat) (v : Byte) (h : m.wf = true) (hlt : ∀ c ∈ m, a < c.1) :
    (Memory.cons a v m).wf = true := by
  unfold Memory.cons
  split
  · exact h
  · next hv => exact (Memory.wf_cons a v m).mpr ⟨hlt, hv, h⟩

/-- Every write keeps the canonical form. -/
theorem Memory.wf_write (m : Memory) (a : Nat) (v : Byte) (h : m.wf = true) : (m.write a v).wf = true := by
  induction m with
  | nil => exact Memory.wf_cons_of_below [] a v h (by simp)
  | cons c rest ih =>
    obtain ⟨k, x⟩ := c
    obtain ⟨hlt, hx, hrest⟩ := (Memory.wf_cons k x rest).mp h
    unfold Memory.write
    split
    · next hak =>
      refine Memory.wf_cons_of_below _ a v h ?_
      intro c hc
      rcases List.mem_cons.mp hc with rfl | hc
      · exact hak
      · exact Nat.lt_trans hak (hlt c hc)
    · split
      · next hak => exact Memory.wf_cons_of_below rest a v hrest (hak ▸ hlt)
      · next hak1 hak2 =>
        refine (Memory.wf_cons k x _).mpr ⟨?_, hx, ih hrest⟩
        intro c hc
        rcases Memory.mem_write rest a v c hc with rfl | hc
        · exact by simp only; omega
        · exact hlt c hc

/-- The empty store, the store at reset, is canonical. -/
theorem Memory.wf_nil : Memory.wf [] = true := rfl

theorem State.reset_store_wf : State.reset.cv.wf = true := rfl

/-- A listed cell of a canonical list is what its address reads as. -/
theorem Memory.read_of_mem (m : Memory) (c : Host.Cell) (h : m.wf = true) (hc : c ∈ m) : m.read c.1 = c.2 := by
  induction m with
  | nil => simp at hc
  | cons d rest ih =>
    obtain ⟨k, x⟩ := d
    obtain ⟨hlt, _, hrest⟩ := (Memory.wf_cons k x rest).mp h
    rcases List.mem_cons.mp hc with rfl | hc
    · simp [Memory.read]
    · rw [Memory.read, if_neg (by have := hlt c hc; omega)]
      exact ih hrest hc

/-- A run of byte writes keeps the canonical form. -/
theorem writeBytes_wf (s : State) (y j : Int) (p : List Byte) (h : s.cv.wf = true) :
    (s.writeBytes y j p).cv.wf = true := by
  induction p generalizing s j with
  | nil => exact h
  | cons v rest ih => exact ih (s.memWrite y j v) (j + 1) (Memory.wf_write s.cv _ v h)

end Sys2Proof.Machine
end

