-- ==== Sys2Proof/Laws/Operands.lean ====
section
/-! SUPPORT. Small facts about operands, ranges, masks and chains. -/

namespace Sys2Proof.Machine

@[simp] theorem intRange_length (a b : Int) : (intRange a b).length = (b - a).toNat := by simp [intRange]

theorem mem_intRange (a b x : Int) : x ∈ intRange a b ↔ a ≤ x ∧ x < b := by
  simp only [intRange, List.mem_map, List.mem_range]
  constructor
  · rintro ⟨k, hk, rfl⟩; omega
  · rintro ⟨h1, h2⟩; exact ⟨(x - a).toNat, by omega, by omega⟩

@[simp] theorem intRange_one (a : Int) : intRange a (a + 1) = [a] := by
  simp [intRange, List.range_succ]

@[simp] theorem be16_length (v : Half) : (be16 v).length = 2 := rfl

/-- The value of a big-endian pair. -/
theorem be16_append (v : Half) : (v.extractLsb' 8 8 ++ v.extractLsb' 0 8 : BitVec 16) = v := by
  ext i hi
  simp only [BitVec.getElem_append, BitVec.getElem_extractLsb']
  split
  · simp [← BitVec.getLsbD_eq_getElem]
  · rw [BitVec.getLsbD_eq_getElem (by omega)]; congr 1; omega

@[simp] theorem Dir.flip_flip (d : Dir) : d.flip.flip = d := by cases d <;> rfl

@[simp] theorem supported_nil (d : Dir) : supported [] d = true := rfl

@[simp] theorem supported_flip (c : List Stage) (d : Dir) : supported (c ++ [.flip]) d = supported c d.flip := by
  simp [supported, supportedOuter]

@[simp] theorem supported_offset (c : List Stage) (dx dy : Int) (d : Dir) :
    supported (c ++ [.offset dx dy]) d = supported c d := by simp [supported, supportedOuter]

@[simp] theorem supported_rot90 (c : List Stage) (d : Dir) :
    supported (c ++ [.rot90]) d = (d == .fwd && supported c .fwd) := by simp [supported, supportedOuter]

theorem fwd_nil (s : State) (r a b : Int) : fwd s [] r a b = (intRange a b).map (s.canvasByte r) := rfl

theorem rev_nil (s : State) (r a b : Int) :
    rev s [] r a b = (intRange a b).reverse.map (fun j => bitrev8 (s.canvasByte r j)) := rfl

theorem fwd_flip (s : State) (c : List Stage) (r a b : Int) : fwd s (c ++ [.flip]) r a b = rev s c r (-b) (-a) := by
  simp [fwd, rev, readOuter, Dir.flip]

theorem rev_flip (s : State) (c : List Stage) (r a b : Int) : rev s (c ++ [.flip]) r a b = fwd s c r (-b) (-a) := by
  simp [fwd, rev, readOuter, Dir.flip]

theorem fwd_offset (s : State) (c : List Stage) (dx dy r a b : Int) :
    fwd s (c ++ [.offset dx dy]) r a b = fwd s c (r - dy) (a - dx) (b - dx) := by
  simp [fwd, readOuter]

theorem rev_offset (s : State) (c : List Stage) (dx dy r a b : Int) :
    rev s (c ++ [.offset dx dy]) r a b = rev s c (r - dy) (a - dx) (b - dx) := by
  simp [rev, readOuter]

theorem point_nil (s : State) (r j : Int) : point s [] r j = s.canvasByte r j := rfl

theorem point_flip (s : State) (c : List Stage) (r j : Int) :
    point s (c ++ [.flip]) r j = bitrev8 (point s c r (-1 - j)) := by simp [point, pointOuter]

theorem point_offset (s : State) (c : List Stage) (dx dy r j : Int) :
    point s (c ++ [.offset dx dy]) r j = point s c (r - dy) (j - dx) := by simp [point, pointOuter]

theorem point_rot90 (s : State) (c : List Stage) (r j : Int) :
    point s (c ++ [.rot90]) r j =
      rotPack (fun (i : Nat) => point s c (8 * j + (i : Int)) (byteAndBit r).1) (rotMask r) := by
  simp [point, pointOuter]

end Sys2Proof.Machine
end

