-- ==== Sys2Proof/Laws/State.lean ====
section
/-! SUPPORT. What each named state update leaves in each field, each true by rfl. -/

namespace Sys2Proof.Machine

/-! ### Ending a command -/

@[simp] theorem respond_par (s : State) (st : Status) (data : List Byte) : (s.respond st data).par = s.par := rfl
@[simp] theorem respond_cv (s : State) (st : Status) (data : List Byte) : (s.respond st data).cv = s.cv := rfl
@[simp] theorem respond_width (s : State) (st : Status) (data : List Byte) : (s.respond st data).width = s.width := rfl
@[simp] theorem respond_height (s : State) (st : Status) (data : List Byte) : (s.respond st data).height = s.height := rfl
@[simp] theorem respond_alphaSet (s : State) (st : Status) (data : List Byte) : (s.respond st data).alphaSet = s.alphaSet := rfl
@[simp] theorem respond_alphaThr (s : State) (st : Status) (data : List Byte) : (s.respond st data).alphaThr = s.alphaThr := rfl
@[simp] theorem respond_slots (s : State) (st : Status) (data : List Byte) : (s.respond st data).slots = s.slots := rfl
@[simp] theorem respond_drv (s : State) (st : Status) (data : List Byte) : (s.respond st data).drv = s.drv := rfl
@[simp] theorem respond_needsReinit (s : State) (st : Status) (data : List Byte) : (s.respond st data).needsReinit = s.needsReinit := rfl
@[simp] theorem respond_n (s : State) (st : Status) (data : List Byte) : (s.respond st data).n = s.n + 1 := rfl
@[simp] theorem respond_payIn (s : State) (st : Status) (data : List Byte) : (s.respond st data).payIn = s.payIn := rfl
@[simp] theorem respond_response (s : State) (st : Status) (data : List Byte) : (s.respond st data).response = some { status := st, data := data } := rfl
@[simp] theorem respond_hostIn (s : State) (st : Status) (data : List Byte) : (s.respond st data).hostIn = s.hostIn := rfl
@[simp] theorem respond_busIn (s : State) (st : Status) (data : List Byte) : (s.respond st data).busIn = s.busIn := rfl
@[simp] theorem respond_busStall (s : State) (st : Status) (data : List Byte) : (s.respond st data).busStall = s.busStall := rfl
@[simp] theorem respond_busOut (s : State) (st : Status) (data : List Byte) : (s.respond st data).busOut = s.busOut := rfl
@[simp] theorem respond_draws (s : State) (st : Status) (data : List Byte) : (s.respond st data).draws = s.draws := rfl

/-! ### Writing one byte of the store -/

@[simp] theorem memWrite_par (s : State) (y j : Int) (v : Byte) : (s.memWrite y j v).par = s.par := rfl
@[simp] theorem memWrite_cv (s : State) (y j : Int) (v : Byte) : (s.memWrite y j v).cv = s.cv.write (s.addr y j) v := rfl
@[simp] theorem memWrite_width (s : State) (y j : Int) (v : Byte) : (s.memWrite y j v).width = s.width := rfl
@[simp] theorem memWrite_height (s : State) (y j : Int) (v : Byte) : (s.memWrite y j v).height = s.height := rfl
@[simp] theorem memWrite_alphaSet (s : State) (y j : Int) (v : Byte) : (s.memWrite y j v).alphaSet = s.alphaSet := rfl
@[simp] theorem memWrite_alphaThr (s : State) (y j : Int) (v : Byte) : (s.memWrite y j v).alphaThr = s.alphaThr := rfl
@[simp] theorem memWrite_slots (s : State) (y j : Int) (v : Byte) : (s.memWrite y j v).slots = s.slots := rfl
@[simp] theorem memWrite_drv (s : State) (y j : Int) (v : Byte) : (s.memWrite y j v).drv = s.drv := rfl
@[simp] theorem memWrite_needsReinit (s : State) (y j : Int) (v : Byte) : (s.memWrite y j v).needsReinit = s.needsReinit := rfl
@[simp] theorem memWrite_n (s : State) (y j : Int) (v : Byte) : (s.memWrite y j v).n = s.n := rfl
@[simp] theorem memWrite_payIn (s : State) (y j : Int) (v : Byte) : (s.memWrite y j v).payIn = s.payIn := rfl
@[simp] theorem memWrite_response (s : State) (y j : Int) (v : Byte) : (s.memWrite y j v).response = s.response := rfl
@[simp] theorem memWrite_hostIn (s : State) (y j : Int) (v : Byte) : (s.memWrite y j v).hostIn = s.hostIn := rfl
@[simp] theorem memWrite_busIn (s : State) (y j : Int) (v : Byte) : (s.memWrite y j v).busIn = s.busIn := rfl
@[simp] theorem memWrite_busStall (s : State) (y j : Int) (v : Byte) : (s.memWrite y j v).busStall = s.busStall := rfl
@[simp] theorem memWrite_busOut (s : State) (y j : Int) (v : Byte) : (s.memWrite y j v).busOut = s.busOut := rfl
@[simp] theorem memWrite_draws (s : State) (y j : Int) (v : Byte) : (s.memWrite y j v).draws = s.draws := rfl

/-! ### Writing one pixel -/

@[simp] theorem writePixel_par (s : State) (x y : Int) (v : Bool) : (s.writePixel x y v).par = s.par := rfl
@[simp] theorem writePixel_cv (s : State) (x y : Int) (v : Bool) : (s.writePixel x y v).cv = s.cv.write (s.addr y (x / 8)) (putMask (s.memRead y (x / 8)) (pixelMask x) v) := rfl
@[simp] theorem writePixel_width (s : State) (x y : Int) (v : Bool) : (s.writePixel x y v).width = s.width := rfl
@[simp] theorem writePixel_height (s : State) (x y : Int) (v : Bool) : (s.writePixel x y v).height = s.height := rfl
@[simp] theorem writePixel_alphaSet (s : State) (x y : Int) (v : Bool) : (s.writePixel x y v).alphaSet = s.alphaSet := rfl
@[simp] theorem writePixel_alphaThr (s : State) (x y : Int) (v : Bool) : (s.writePixel x y v).alphaThr = s.alphaThr := rfl
@[simp] theorem writePixel_slots (s : State) (x y : Int) (v : Bool) : (s.writePixel x y v).slots = s.slots := rfl
@[simp] theorem writePixel_drv (s : State) (x y : Int) (v : Bool) : (s.writePixel x y v).drv = s.drv := rfl
@[simp] theorem writePixel_needsReinit (s : State) (x y : Int) (v : Bool) : (s.writePixel x y v).needsReinit = s.needsReinit := rfl
@[simp] theorem writePixel_n (s : State) (x y : Int) (v : Bool) : (s.writePixel x y v).n = s.n := rfl
@[simp] theorem writePixel_payIn (s : State) (x y : Int) (v : Bool) : (s.writePixel x y v).payIn = s.payIn := rfl
@[simp] theorem writePixel_response (s : State) (x y : Int) (v : Bool) : (s.writePixel x y v).response = s.response := rfl
@[simp] theorem writePixel_hostIn (s : State) (x y : Int) (v : Bool) : (s.writePixel x y v).hostIn = s.hostIn := rfl
@[simp] theorem writePixel_busIn (s : State) (x y : Int) (v : Bool) : (s.writePixel x y v).busIn = s.busIn := rfl
@[simp] theorem writePixel_busStall (s : State) (x y : Int) (v : Bool) : (s.writePixel x y v).busStall = s.busStall := rfl
@[simp] theorem writePixel_busOut (s : State) (x y : Int) (v : Bool) : (s.writePixel x y v).busOut = s.busOut := rfl
@[simp] theorem writePixel_draws (s : State) (x y : Int) (v : Bool) : (s.writePixel x y v).draws = s.draws := rfl

/-! ### Replacing a chain -/

@[simp] theorem setChain_par (s : State) (slot : Nat) (c : List Stage) : (s.setChain slot c).par = s.par := rfl
@[simp] theorem setChain_cv (s : State) (slot : Nat) (c : List Stage) : (s.setChain slot c).cv = s.cv := rfl
@[simp] theorem setChain_width (s : State) (slot : Nat) (c : List Stage) : (s.setChain slot c).width = s.width := rfl
@[simp] theorem setChain_height (s : State) (slot : Nat) (c : List Stage) : (s.setChain slot c).height = s.height := rfl
@[simp] theorem setChain_alphaSet (s : State) (slot : Nat) (c : List Stage) : (s.setChain slot c).alphaSet = s.alphaSet := rfl
@[simp] theorem setChain_alphaThr (s : State) (slot : Nat) (c : List Stage) : (s.setChain slot c).alphaThr = s.alphaThr := rfl
@[simp] theorem setChain_slots (s : State) (slot : Nat) (c : List Stage) : (s.setChain slot c).slots = s.slots.set slot c := rfl
@[simp] theorem setChain_drv (s : State) (slot : Nat) (c : List Stage) : (s.setChain slot c).drv = s.drv := rfl
@[simp] theorem setChain_needsReinit (s : State) (slot : Nat) (c : List Stage) : (s.setChain slot c).needsReinit = s.needsReinit := rfl
@[simp] theorem setChain_n (s : State) (slot : Nat) (c : List Stage) : (s.setChain slot c).n = s.n := rfl
@[simp] theorem setChain_payIn (s : State) (slot : Nat) (c : List Stage) : (s.setChain slot c).payIn = s.payIn := rfl
@[simp] theorem setChain_response (s : State) (slot : Nat) (c : List Stage) : (s.setChain slot c).response = s.response := rfl
@[simp] theorem setChain_hostIn (s : State) (slot : Nat) (c : List Stage) : (s.setChain slot c).hostIn = s.hostIn := rfl
@[simp] theorem setChain_busIn (s : State) (slot : Nat) (c : List Stage) : (s.setChain slot c).busIn = s.busIn := rfl
@[simp] theorem setChain_busStall (s : State) (slot : Nat) (c : List Stage) : (s.setChain slot c).busStall = s.busStall := rfl
@[simp] theorem setChain_busOut (s : State) (slot : Nat) (c : List Stage) : (s.setChain slot c).busOut = s.busOut := rfl
@[simp] theorem setChain_draws (s : State) (slot : Nat) (c : List Stage) : (s.setChain slot c).draws = s.draws := rfl

/-! ### Setting DRV[d].CFG -/

@[simp] theorem setCfg_par (s : State) (d : Dev) (v : Byte) : (s.setCfg d v).par = s.par := rfl
@[simp] theorem setCfg_cv (s : State) (d : Dev) (v : Byte) : (s.setCfg d v).cv = s.cv := rfl
@[simp] theorem setCfg_width (s : State) (d : Dev) (v : Byte) : (s.setCfg d v).width = s.width := rfl
@[simp] theorem setCfg_height (s : State) (d : Dev) (v : Byte) : (s.setCfg d v).height = s.height := rfl
@[simp] theorem setCfg_alphaSet (s : State) (d : Dev) (v : Byte) : (s.setCfg d v).alphaSet = s.alphaSet := rfl
@[simp] theorem setCfg_alphaThr (s : State) (d : Dev) (v : Byte) : (s.setCfg d v).alphaThr = s.alphaThr := rfl
@[simp] theorem setCfg_slots (s : State) (d : Dev) (v : Byte) : (s.setCfg d v).slots = s.slots := rfl
@[simp] theorem setCfg_drv (s : State) (d : Dev) (v : Byte) : (s.setCfg d v).drv = put s.drv d { pick s.drv d with cfg := v } := rfl
@[simp] theorem setCfg_needsReinit (s : State) (d : Dev) (v : Byte) : (s.setCfg d v).needsReinit = s.needsReinit := rfl
@[simp] theorem setCfg_n (s : State) (d : Dev) (v : Byte) : (s.setCfg d v).n = s.n := rfl
@[simp] theorem setCfg_payIn (s : State) (d : Dev) (v : Byte) : (s.setCfg d v).payIn = s.payIn := rfl
@[simp] theorem setCfg_response (s : State) (d : Dev) (v : Byte) : (s.setCfg d v).response = s.response := rfl
@[simp] theorem setCfg_hostIn (s : State) (d : Dev) (v : Byte) : (s.setCfg d v).hostIn = s.hostIn := rfl
@[simp] theorem setCfg_busIn (s : State) (d : Dev) (v : Byte) : (s.setCfg d v).busIn = s.busIn := rfl
@[simp] theorem setCfg_busStall (s : State) (d : Dev) (v : Byte) : (s.setCfg d v).busStall = s.busStall := rfl
@[simp] theorem setCfg_busOut (s : State) (d : Dev) (v : Byte) : (s.setCfg d v).busOut = s.busOut := rfl
@[simp] theorem setCfg_draws (s : State) (d : Dev) (v : Byte) : (s.setCfg d v).draws = s.draws := rfl

/-! ### Setting DRV[d].LIT -/

@[simp] theorem setLit_par (s : State) (d : Dev) (v : Byte) : (s.setLit d v).par = s.par := rfl
@[simp] theorem setLit_cv (s : State) (d : Dev) (v : Byte) : (s.setLit d v).cv = s.cv := rfl
@[simp] theorem setLit_width (s : State) (d : Dev) (v : Byte) : (s.setLit d v).width = s.width := rfl
@[simp] theorem setLit_height (s : State) (d : Dev) (v : Byte) : (s.setLit d v).height = s.height := rfl
@[simp] theorem setLit_alphaSet (s : State) (d : Dev) (v : Byte) : (s.setLit d v).alphaSet = s.alphaSet := rfl
@[simp] theorem setLit_alphaThr (s : State) (d : Dev) (v : Byte) : (s.setLit d v).alphaThr = s.alphaThr := rfl
@[simp] theorem setLit_slots (s : State) (d : Dev) (v : Byte) : (s.setLit d v).slots = s.slots := rfl
@[simp] theorem setLit_drv (s : State) (d : Dev) (v : Byte) : (s.setLit d v).drv = put s.drv d { pick s.drv d with lit := v } := rfl
@[simp] theorem setLit_needsReinit (s : State) (d : Dev) (v : Byte) : (s.setLit d v).needsReinit = s.needsReinit := rfl
@[simp] theorem setLit_n (s : State) (d : Dev) (v : Byte) : (s.setLit d v).n = s.n := rfl
@[simp] theorem setLit_payIn (s : State) (d : Dev) (v : Byte) : (s.setLit d v).payIn = s.payIn := rfl
@[simp] theorem setLit_response (s : State) (d : Dev) (v : Byte) : (s.setLit d v).response = s.response := rfl
@[simp] theorem setLit_hostIn (s : State) (d : Dev) (v : Byte) : (s.setLit d v).hostIn = s.hostIn := rfl
@[simp] theorem setLit_busIn (s : State) (d : Dev) (v : Byte) : (s.setLit d v).busIn = s.busIn := rfl
@[simp] theorem setLit_busStall (s : State) (d : Dev) (v : Byte) : (s.setLit d v).busStall = s.busStall := rfl
@[simp] theorem setLit_busOut (s : State) (d : Dev) (v : Byte) : (s.setLit d v).busOut = s.busOut := rfl
@[simp] theorem setLit_draws (s : State) (d : Dev) (v : Byte) : (s.setLit d v).draws = s.draws := rfl

/-! ### Setting NEEDS_REINIT[d] -/

@[simp] theorem setReinit_par (s : State) (d : Dev) (v : Bool) : (s.setReinit d v).par = s.par := rfl
@[simp] theorem setReinit_cv (s : State) (d : Dev) (v : Bool) : (s.setReinit d v).cv = s.cv := rfl
@[simp] theorem setReinit_width (s : State) (d : Dev) (v : Bool) : (s.setReinit d v).width = s.width := rfl
@[simp] theorem setReinit_height (s : State) (d : Dev) (v : Bool) : (s.setReinit d v).height = s.height := rfl
@[simp] theorem setReinit_alphaSet (s : State) (d : Dev) (v : Bool) : (s.setReinit d v).alphaSet = s.alphaSet := rfl
@[simp] theorem setReinit_alphaThr (s : State) (d : Dev) (v : Bool) : (s.setReinit d v).alphaThr = s.alphaThr := rfl
@[simp] theorem setReinit_slots (s : State) (d : Dev) (v : Bool) : (s.setReinit d v).slots = s.slots := rfl
@[simp] theorem setReinit_drv (s : State) (d : Dev) (v : Bool) : (s.setReinit d v).drv = s.drv := rfl
@[simp] theorem setReinit_needsReinit (s : State) (d : Dev) (v : Bool) : (s.setReinit d v).needsReinit = put s.needsReinit d v := rfl
@[simp] theorem setReinit_n (s : State) (d : Dev) (v : Bool) : (s.setReinit d v).n = s.n := rfl
@[simp] theorem setReinit_payIn (s : State) (d : Dev) (v : Bool) : (s.setReinit d v).payIn = s.payIn := rfl
@[simp] theorem setReinit_response (s : State) (d : Dev) (v : Bool) : (s.setReinit d v).response = s.response := rfl
@[simp] theorem setReinit_hostIn (s : State) (d : Dev) (v : Bool) : (s.setReinit d v).hostIn = s.hostIn := rfl
@[simp] theorem setReinit_busIn (s : State) (d : Dev) (v : Bool) : (s.setReinit d v).busIn = s.busIn := rfl
@[simp] theorem setReinit_busStall (s : State) (d : Dev) (v : Bool) : (s.setReinit d v).busStall = s.busStall := rfl
@[simp] theorem setReinit_busOut (s : State) (d : Dev) (v : Bool) : (s.setReinit d v).busOut = s.busOut := rfl
@[simp] theorem setReinit_draws (s : State) (d : Dev) (v : Bool) : (s.setReinit d v).draws = s.draws := rfl

/-! ### One bus write -/

@[simp] theorem busWrite_par (s : State) (d : Dev) (frame : List Byte) : (s.busWrite d frame).par = s.par := rfl
@[simp] theorem busWrite_cv (s : State) (d : Dev) (frame : List Byte) : (s.busWrite d frame).cv = s.cv := rfl
@[simp] theorem busWrite_width (s : State) (d : Dev) (frame : List Byte) : (s.busWrite d frame).width = s.width := rfl
@[simp] theorem busWrite_height (s : State) (d : Dev) (frame : List Byte) : (s.busWrite d frame).height = s.height := rfl
@[simp] theorem busWrite_alphaSet (s : State) (d : Dev) (frame : List Byte) : (s.busWrite d frame).alphaSet = s.alphaSet := rfl
@[simp] theorem busWrite_alphaThr (s : State) (d : Dev) (frame : List Byte) : (s.busWrite d frame).alphaThr = s.alphaThr := rfl
@[simp] theorem busWrite_slots (s : State) (d : Dev) (frame : List Byte) : (s.busWrite d frame).slots = s.slots := rfl
@[simp] theorem busWrite_drv (s : State) (d : Dev) (frame : List Byte) : (s.busWrite d frame).drv = s.drv := rfl
@[simp] theorem busWrite_needsReinit (s : State) (d : Dev) (frame : List Byte) : (s.busWrite d frame).needsReinit = s.needsReinit := rfl
@[simp] theorem busWrite_n (s : State) (d : Dev) (frame : List Byte) : (s.busWrite d frame).n = s.n := rfl
@[simp] theorem busWrite_payIn (s : State) (d : Dev) (frame : List Byte) : (s.busWrite d frame).payIn = s.payIn := rfl
@[simp] theorem busWrite_response (s : State) (d : Dev) (frame : List Byte) : (s.busWrite d frame).response = s.response := rfl
@[simp] theorem busWrite_hostIn (s : State) (d : Dev) (frame : List Byte) : (s.busWrite d frame).hostIn = s.hostIn := rfl
@[simp] theorem busWrite_busIn (s : State) (d : Dev) (frame : List Byte) : (s.busWrite d frame).busIn = s.busIn.tail := rfl
@[simp] theorem busWrite_busStall (s : State) (d : Dev) (frame : List Byte) : (s.busWrite d frame).busStall = s.busStall := rfl
@[simp] theorem busWrite_busOut (s : State) (d : Dev) (frame : List Byte) : (s.busWrite d frame).busOut = s.busOut ++ [{ addr := pick s.par.devAddr d, frame := frame, answer := s.nextAnswer }] := rfl
@[simp] theorem busWrite_draws (s : State) (d : Dev) (frame : List Byte) : (s.busWrite d frame).draws = if s.busIn = [] then s.draws + 1 else s.draws := rfl

/-! ### Accepting a command -/

@[simp] theorem accept_par (s : State) (p : List Byte) (rest : List HostEvent) : (s.accept p rest).par = s.par := rfl
@[simp] theorem accept_cv (s : State) (p : List Byte) (rest : List HostEvent) : (s.accept p rest).cv = s.cv := rfl
@[simp] theorem accept_width (s : State) (p : List Byte) (rest : List HostEvent) : (s.accept p rest).width = s.width := rfl
@[simp] theorem accept_height (s : State) (p : List Byte) (rest : List HostEvent) : (s.accept p rest).height = s.height := rfl
@[simp] theorem accept_alphaSet (s : State) (p : List Byte) (rest : List HostEvent) : (s.accept p rest).alphaSet = s.alphaSet := rfl
@[simp] theorem accept_alphaThr (s : State) (p : List Byte) (rest : List HostEvent) : (s.accept p rest).alphaThr = s.alphaThr := rfl
@[simp] theorem accept_slots (s : State) (p : List Byte) (rest : List HostEvent) : (s.accept p rest).slots = s.slots := rfl
@[simp] theorem accept_drv (s : State) (p : List Byte) (rest : List HostEvent) : (s.accept p rest).drv = s.drv := rfl
@[simp] theorem accept_needsReinit (s : State) (p : List Byte) (rest : List HostEvent) : (s.accept p rest).needsReinit = s.needsReinit := rfl
@[simp] theorem accept_n (s : State) (p : List Byte) (rest : List HostEvent) : (s.accept p rest).n = s.n := rfl
@[simp] theorem accept_payIn (s : State) (p : List Byte) (rest : List HostEvent) : (s.accept p rest).payIn = s.payIn ++ p := rfl
@[simp] theorem accept_response (s : State) (p : List Byte) (rest : List HostEvent) : (s.accept p rest).response = s.response := rfl
@[simp] theorem accept_hostIn (s : State) (p : List Byte) (rest : List HostEvent) : (s.accept p rest).hostIn = rest := rfl
@[simp] theorem accept_busIn (s : State) (p : List Byte) (rest : List HostEvent) : (s.accept p rest).busIn = s.busIn := rfl
@[simp] theorem accept_busStall (s : State) (p : List Byte) (rest : List HostEvent) : (s.accept p rest).busStall = s.busStall := rfl
@[simp] theorem accept_busOut (s : State) (p : List Byte) (rest : List HostEvent) : (s.accept p rest).busOut = s.busOut := rfl
@[simp] theorem accept_draws (s : State) (p : List Byte) (rest : List HostEvent) : (s.accept p rest).draws = s.draws := rfl

/-! ### The reset event -/

@[simp] theorem resetEvent_par (s : State) (rest : List HostEvent) : (s.resetEvent rest).par = s.par := rfl
@[simp] theorem resetEvent_cv (s : State) (rest : List HostEvent) : (s.resetEvent rest).cv = [] := rfl
@[simp] theorem resetEvent_width (s : State) (rest : List HostEvent) : (s.resetEvent rest).width = 0 := rfl
@[simp] theorem resetEvent_height (s : State) (rest : List HostEvent) : (s.resetEvent rest).height = 0 := rfl
@[simp] theorem resetEvent_alphaSet (s : State) (rest : List HostEvent) : (s.resetEvent rest).alphaSet = false := rfl
@[simp] theorem resetEvent_alphaThr (s : State) (rest : List HostEvent) : (s.resetEvent rest).alphaThr = 0x00 := rfl
@[simp] theorem resetEvent_slots (s : State) (rest : List HostEvent) : (s.resetEvent rest).slots = List.replicate s.par.viewSlots [] := rfl
@[simp] theorem resetEvent_drv (s : State) (rest : List HostEvent) : (s.resetEvent rest).drv = { d0 := { cfg := 0x00, lit := 0x00 }, d1 := { cfg := 0x00, lit := 0x00 } } := rfl
@[simp] theorem resetEvent_needsReinit (s : State) (rest : List HostEvent) : (s.resetEvent rest).needsReinit = { d0 := true, d1 := true } := rfl
@[simp] theorem resetEvent_n (s : State) (rest : List HostEvent) : (s.resetEvent rest).n = 0 := rfl
@[simp] theorem resetEvent_payIn (s : State) (rest : List HostEvent) : (s.resetEvent rest).payIn = [] := rfl
@[simp] theorem resetEvent_response (s : State) (rest : List HostEvent) : (s.resetEvent rest).response = none := rfl
@[simp] theorem resetEvent_hostIn (s : State) (rest : List HostEvent) : (s.resetEvent rest).hostIn = rest := rfl
@[simp] theorem resetEvent_busIn (s : State) (rest : List HostEvent) : (s.resetEvent rest).busIn = s.busIn := rfl
@[simp] theorem resetEvent_busStall (s : State) (rest : List HostEvent) : (s.resetEvent rest).busStall = s.busStall := rfl
@[simp] theorem resetEvent_busOut (s : State) (rest : List HostEvent) : (s.resetEvent rest).busOut = s.busOut := rfl
@[simp] theorem resetEvent_draws (s : State) (rest : List HostEvent) : (s.resetEvent rest).draws = s.draws := rfl

/-! ### Writing a run of bytes -/

/-- A run of byte writes changes the store alone. -/
theorem writeBytes_eq (s : State) (y j : Int) (p : List Byte) :
    s.writeBytes y j p = { s with cv := (s.writeBytes y j p).cv } := by
  induction p generalizing s j with
  | nil => rfl
  | cons v rest ih => simpa [State.writeBytes, State.memWrite] using ih (s.memWrite y j v) (j + 1)

@[simp] theorem writeBytes_par (s : State) (y j : Int) (p : List Byte) : (s.writeBytes y j p).par = s.par := by
  rw [writeBytes_eq]
@[simp] theorem writeBytes_width (s : State) (y j : Int) (p : List Byte) : (s.writeBytes y j p).width = s.width := by
  rw [writeBytes_eq]
@[simp] theorem writeBytes_height (s : State) (y j : Int) (p : List Byte) : (s.writeBytes y j p).height = s.height := by
  rw [writeBytes_eq]
@[simp] theorem writeBytes_alphaSet (s : State) (y j : Int) (p : List Byte) : (s.writeBytes y j p).alphaSet = s.alphaSet := by
  rw [writeBytes_eq]
@[simp] theorem writeBytes_alphaThr (s : State) (y j : Int) (p : List Byte) : (s.writeBytes y j p).alphaThr = s.alphaThr := by
  rw [writeBytes_eq]
@[simp] theorem writeBytes_slots (s : State) (y j : Int) (p : List Byte) : (s.writeBytes y j p).slots = s.slots := by
  rw [writeBytes_eq]
@[simp] theorem writeBytes_drv (s : State) (y j : Int) (p : List Byte) : (s.writeBytes y j p).drv = s.drv := by
  rw [writeBytes_eq]
@[simp] theorem writeBytes_needsReinit (s : State) (y j : Int) (p : List Byte) : (s.writeBytes y j p).needsReinit = s.needsReinit := by
  rw [writeBytes_eq]
@[simp] theorem writeBytes_n (s : State) (y j : Int) (p : List Byte) : (s.writeBytes y j p).n = s.n := by
  rw [writeBytes_eq]
@[simp] theorem writeBytes_payIn (s : State) (y j : Int) (p : List Byte) : (s.writeBytes y j p).payIn = s.payIn := by
  rw [writeBytes_eq]
@[simp] theorem writeBytes_response (s : State) (y j : Int) (p : List Byte) : (s.writeBytes y j p).response = s.response := by
  rw [writeBytes_eq]
@[simp] theorem writeBytes_hostIn (s : State) (y j : Int) (p : List Byte) : (s.writeBytes y j p).hostIn = s.hostIn := by
  rw [writeBytes_eq]
@[simp] theorem writeBytes_busIn (s : State) (y j : Int) (p : List Byte) : (s.writeBytes y j p).busIn = s.busIn := by
  rw [writeBytes_eq]
@[simp] theorem writeBytes_busStall (s : State) (y j : Int) (p : List Byte) : (s.writeBytes y j p).busStall = s.busStall := by
  rw [writeBytes_eq]
@[simp] theorem writeBytes_busOut (s : State) (y j : Int) (p : List Byte) : (s.writeBytes y j p).busOut = s.busOut := by
  rw [writeBytes_eq]
@[simp] theorem writeBytes_draws (s : State) (y j : Int) (p : List Byte) : (s.writeBytes y j p).draws = s.draws := by
  rw [writeBytes_eq]

/-! ### Functions of the geometry see only WIDTH and the parameters -/

@[simp] theorem addr_memWrite (s : State) (y j y' j' : Int) (v : Byte) : (s.memWrite y j v).addr y' j' = s.addr y' j' := rfl
@[simp] theorem addr_respond (s : State) (st : Status) (data : List Byte) (y j : Int) : (s.respond st data).addr y j = s.addr y j := rfl
@[simp] theorem memRead_respond (s : State) (st : Status) (data : List Byte) (y j : Int) : (s.respond st data).memRead y j = s.memRead y j := rfl
@[simp] theorem canvasByte_respond (s : State) (st : Status) (data : List Byte) (y j : Int) : (s.respond st data).canvasByte y j = s.canvasByte y j := rfl
@[simp] theorem canvasByte_busWrite (s : State) (d : Dev) (frame : List Byte) (y j : Int) : (s.busWrite d frame).canvasByte y j = s.canvasByte y j := rfl
@[simp] theorem rowLen_respond (s : State) (st : Status) (data : List Byte) : (s.respond st data).rowLen = s.rowLen := rfl

/-! ### The pairs of the two devices -/

@[simp] theorem pick_put_same {α : Type} (p : PerDev α) (d : Dev) (v : α) : pick (put p d v) d = v := by cases d <;> rfl

theorem pick_put_other {α : Type} (p : PerDev α) (d e : Dev) (v : α) (h : e ≠ d) : pick (put p d v) e = pick p e := by
  cases d <;> cases e <;> first | rfl | exact absurd rfl h

@[simp] theorem put_put_same {α : Type} (p : PerDev α) (d : Dev) (v w : α) : put (put p d v) d w = put p d w := by cases d <;> rfl

@[simp] theorem put_pick_same {α : Type} (p : PerDev α) (d : Dev) : put p d (pick p d) = p := by cases d <;> rfl

end Sys2Proof.Machine
end

