-- ==== Sys2Proof/Laws/Ops.lean ====
section
/-! SUPPORT. One lemma per shared operation: what it can answer. -/

namespace Sys2Proof.Machine

@[simp] theorem finish_next (data : List Byte) (s t : State) :
    finish data s = .next t ↔ t = s.respond .ok data := by
  simp [finish, eq_comm]

@[simp] theorem raise_next (c : Status) (s t : State) : raise c s = .next t ↔ t = s.respond c [] := by
  simp [raise, eq_comm]

@[simp] theorem orRaise_none (s : State) (k : Exec) : orRaise none s k = k := rfl
@[simp] theorem orRaise_some (st : Status) (s : State) (k : Exec) : orRaise (some st) s k = raise st s := rfl

/-- A check either raises its status or lets the rest of the command answer. -/
theorem orRaise_next (c : Option Status) (s t : State) (k : Exec) (h : orRaise c s k = .next t) :
    (∃ st, c = some st ∧ t = s.respond st []) ∨ (c = none ∧ k = .next t) := by
  cases c with
  | none => exact .inr ⟨rfl, h⟩
  | some st => exact .inl ⟨st, rfl, (raise_next st s t).mp h⟩

/-- A command that takes a payload answers only when the bytes are there, and then runs on exactly those. -/
theorem withPayload_next (len : Nat) (s t : State) (k : List Byte → State → Exec)
    (h : withPayload len s k = .next t) :
    len ≤ s.payIn.length ∧ k (s.payIn.take len) { s with payIn := s.payIn.drop len } = .next t := by
  unfold withPayload at h
  split at h
  · cases h
  · exact ⟨by omega, h⟩

theorem withPayload_ready (len : Nat) (s : State) (k : List Byte → State → Exec) (h : len ≤ s.payIn.length) :
    withPayload len s k = k (s.payIn.take len) { s with payIn := s.payIn.drop len } := by
  unfold withPayload
  rw [if_neg (by omega)]

theorem devOf_eq_none (u : Nat) : devOf u = none ↔ 1 < u := by
  match u with
  | 0 => simp [devOf]
  | 1 => simp [devOf]
  | n + 2 => simp [devOf]

/-- A device operand names a device, or the command ends with BAD_UNIT. -/
theorem withDev_next (u : Nat) (s t : State) (k : Dev → Exec) (h : withDev u s k = .next t) :
    (∃ d, devOf u = some d ∧ k d = .next t) ∨ (1 < u ∧ t = s.respond .badUnit []) := by
  unfold withDev at h
  split at h
  · next d hd => exact .inl ⟨d, hd, h⟩
  · next hd => exact .inr ⟨(devOf_eq_none u).mp hd, (raise_next _ _ _).mp h⟩

theorem withDev_some (u : Nat) (s : State) (k : Dev → Exec) (d : Dev) (h : devOf u = some d) :
    withDev u s k = k d := by simp [withDev, h]

/-- A slot operand names a slot, or the command ends with BAD_UNIT. -/
theorem withSlot_next (slot : Nat) (s t : State) (k : Exec) (h : withSlot slot s k = .next t) :
    (slot < s.par.viewSlots ∧ k = .next t) ∨ (s.par.viewSlots ≤ slot ∧ t = s.respond .badUnit []) := by
  unfold withSlot at h
  split at h
  · next hs => exact .inl ⟨hs, h⟩
  · next hs => exact .inr ⟨by omega, (raise_next _ _ _).mp h⟩

theorem checkRow_none (s : State) (y : Int) : checkRow s y = none ↔ s.liveRow y := by
  unfold checkRow
  by_cases h : s.liveRow y
  · exact ⟨fun _ => h, fun _ => if_pos h⟩
  · exact ⟨fun hc => by simp [h] at hc, fun hl => absurd hl h⟩

/-- A column check passes exactly when column and row are both in bounds, whatever the order. -/
theorem checkCol_none (s : State) (x : Int) (limit : Nat) (y : Int) :
    checkCol s x limit y = none ↔ (0 ≤ x ∧ x < (limit : Int)) ∧ s.liveRow y := by
  unfold checkCol
  cases s.par.oobOrder <;> by_cases hx : (0 ≤ x ∧ x < (limit : Int)) <;> 
    by_cases hy : (0 ≤ y ∧ y < (s.height.toNat : Int)) <;> simp [State.liveRow, hx, hy]

/-- A column check raises X_OOB or Y_OOB and nothing else. -/
theorem checkCol_some (s : State) (x : Int) (limit : Nat) (y : Int) (st : Status)
    (h : checkCol s x limit y = some st) : st = .xOob ∨ st = .yOob := by
  unfold checkCol at h
  cases ho : s.par.oobOrder <;> simp only [ho] at h <;> split at h <;> try split at h
  all_goals simp_all

/-- Settling answers the state it is given, or waits for the bus. -/
theorem settle_next (s r t : State) (h : settle s r = .next t) : t = r := by
  unfold settle at h
  split at h
  · exact (Host.Outcome.next.inj h).symm
  · split at h
    · cases h
    · exact (Host.Outcome.next.inj h).symm

/-- A command whose bus writes are all answered settles. -/
theorem settle_answered (s r : State) (h : ∀ k, s.busStall = some k → k < s.busOut.length ∨ r.busOut.length ≤ k) :
    settle s r = .next r := by
  unfold settle
  split
  · rfl
  · next k hk =>
    rw [if_neg]
    rcases h k hk with h | h <;> omega

/-- A command that made the write that is never answered waits. -/
theorem settle_stalled (s r : State) (k : Nat) (hk : s.busStall = some k) (hlo : s.busOut.length ≤ k)
    (hhi : k < r.busOut.length) : settle s r = .fault .waitBus := by
  unfold settle
  rw [hk]
  exact if_pos ⟨hlo, hhi⟩

/-- A driver write answers the state after `onOk` with OK, or the state after the write with TRANSPORT and the bus's
code. -/
theorem drvWrite_next (d : Dev) (frame : List Byte) (onOk : State → State) (s t : State)
    (h : drvWrite d frame onOk s = .next t) :
    (s.nextAnswer = .ok ∧ t = (onOk (s.busWrite d frame)).respond .ok []) ∨
    (∃ e, s.nextAnswer = .err e ∧ t = (s.busWrite d frame).respond .transport [e]) := by
  have h := settle_next _ _ _ h
  split at h
  · next ha => exact .inl ⟨ha, h⟩
  · next e ha => exact .inr ⟨e, ha, h⟩

/-- Appending a stage answers the longer chain, or DEPTH_FULL with nothing changed. -/
theorem appendStage_next (slot : Nat) (g : Stage) (s t : State) (h : appendStage slot g s = .next t) :
    ((s.chain slot).length < s.par.viewDepth ∧
      t = (s.setChain slot (s.chain slot ++ [g])).respond .ok []) ∨
    (s.par.viewDepth ≤ (s.chain slot).length ∧ t = s.respond .depthFull []) := by
  unfold appendStage at h
  rcases orRaise_next _ _ _ _ h with ⟨st, hc, ht⟩ | ⟨hc, hk⟩
  · split at hc
    · cases hc
    · exact .inr ⟨by omega, by cases hc; exact ht⟩
  · split at hc
    · exact .inl ⟨by assumption, (finish_next _ _ _).mp hk⟩
    · cases hc

/-- An unanswered free value apart, a bus write uses up one answer. -/
theorem nextAnswer_cons (s : State) (a : BusAnswer) (rest : List BusAnswer) (h : s.busIn = a :: rest) :
    s.nextAnswer = a := by simp [State.nextAnswer, h]

end Sys2Proof.Machine
end

