-- ==== Sys2Proof/Laws/PerInstr.lean ====
section
/-! SUPPORT. Facts stated for every command, one lemma per constructor. -/

namespace Sys2Proof.Laws

/-- The word of a command spells its own row of the opcode table (30_encoding.md R72), whatever its operands. -/
def SpellsRow.Statement (i : Instr) : Prop :=
  ∃ r ∈ opcodeTable, r.mnemonic = i.mnemonic ∧ r.spells (encode i) = true

/-- The fields of a command, masked, are its row's: the shape every lemma below has. -/
theorem spells_of_fields (i : Instr) (r : OpRow) (hr : r ∈ opcodeTable) (hm : r.mnemonic = i.mnemonic)
    (h : (encodeFields i).and (Fields.ofWord r.mask) = Fields.ofWord r.pattern) : SpellsRow.Statement i := by
  refine ⟨r, hr, hm, (OpRow.spells_iff r _).mpr ?_⟩
  rw [encode, Fields.ofWord_toWord, h]

/-- The two bytes of a byte operand widened to C. -/
theorem high_of_widened (v : Byte) : (v.setWidth 16).extractLsb' 8 8 = 0#8 := by
  ext i hi
  simp [BitVec.getElem_extractLsb', BitVec.getLsbD_setWidth]

theorem SpellsRow.cvNew (w h : Nat) : SpellsRow.Statement (.cvNew w h) := by
  refine spells_of_fields _ { mnemonic := "CV.NEW", pattern := 0x0100000000000000, mask := 0xFFFF00000000FFFF } (by decide) rfl ?_
  simp [encodeFields, fieldsOf, Fields.and, Fields.ofWord]

theorem SpellsRow.cvWidth : SpellsRow.Statement (.cvWidth) := by
  refine spells_of_fields _ { mnemonic := "CV.WIDTH", pattern := 0x0200000000000000, mask := 0xFFFFFFFFFFFFFFFF } (by decide) rfl ?_
  simp [encodeFields, fieldsOf, Fields.and, Fields.ofWord]

theorem SpellsRow.cvHeight : SpellsRow.Statement (.cvHeight) := by
  refine spells_of_fields _ { mnemonic := "CV.HEIGHT", pattern := 0x0300000000000000, mask := 0xFFFFFFFFFFFFFFFF } (by decide) rfl ?_
  simp [encodeFields, fieldsOf, Fields.and, Fields.ofWord]

theorem SpellsRow.cvCapw : SpellsRow.Statement (.cvCapw) := by
  refine spells_of_fields _ { mnemonic := "CV.CAPW", pattern := 0x0400000000000000, mask := 0xFFFFFFFFFFFFFFFF } (by decide) rfl ?_
  simp [encodeFields, fieldsOf, Fields.and, Fields.ofWord]

theorem SpellsRow.cvCaph : SpellsRow.Statement (.cvCaph) := by
  refine spells_of_fields _ { mnemonic := "CV.CAPH", pattern := 0x0500000000000000, mask := 0xFFFFFFFFFFFFFFFF } (by decide) rfl ?_
  simp [encodeFields, fieldsOf, Fields.and, Fields.ofWord]

theorem SpellsRow.cvRow (y : Int) : SpellsRow.Statement (.cvRow y) := by
  refine spells_of_fields _ { mnemonic := "CV.ROW", pattern := 0x0600000000000000, mask := 0xFFFF0000FFFFFFFF } (by decide) rfl ?_
  simp [encodeFields, fieldsOf, Fields.and, Fields.ofWord]

theorem SpellsRow.cvRoww (y : Int) : SpellsRow.Statement (.cvRoww y) := by
  refine spells_of_fields _ { mnemonic := "CV.ROWW", pattern := 0x0700000000000000, mask := 0xFFFF0000FFFFFFFF } (by decide) rfl ?_
  simp [encodeFields, fieldsOf, Fields.and, Fields.ofWord]

theorem SpellsRow.cvByte (bx y : Int) : SpellsRow.Statement (.cvByte bx y) := by
  refine spells_of_fields _ { mnemonic := "CV.BYTE", pattern := 0x0800000000000000, mask := 0xFFFF00000000FFFF } (by decide) rfl ?_
  simp [encodeFields, fieldsOf, Fields.and, Fields.ofWord]

theorem SpellsRow.cvBytew (bx y : Int) (v : Byte) : SpellsRow.Statement (.cvBytew bx y v) := by
  refine spells_of_fields _ { mnemonic := "CV.BYTEW", pattern := 0x0900000000000000, mask := 0xFFFF00000000FF00 } (by decide) rfl ?_
  simp [encodeFields, fieldsOf, Fields.and, Fields.ofWord, high_of_widened]

theorem SpellsRow.cvBit (x y : Int) : SpellsRow.Statement (.cvBit x y) := by
  refine spells_of_fields _ { mnemonic := "CV.BIT", pattern := 0x0A00000000000000, mask := 0xFFFF00000000FFFF } (by decide) rfl ?_
  simp [encodeFields, fieldsOf, Fields.and, Fields.ofWord]

theorem SpellsRow.cvBitw (x y : Int) (v : Bool) : SpellsRow.Statement (.cvBitw x y v) := by
  refine spells_of_fields _ { mnemonic := "CV.BITW", pattern := 0x0B00000000000000, mask := 0xFFFF00000000FFFE } (by decide) rfl ?_
  simp [encodeFields, fieldsOf, Fields.and, Fields.ofWord]
  cases v <;> decide

theorem SpellsRow.cvAlpha : SpellsRow.Statement (.cvAlpha) := by
  refine spells_of_fields _ { mnemonic := "CV.ALPHA", pattern := 0x0C00000000000000, mask := 0xFFFFFFFFFFFFFFFF } (by decide) rfl ?_
  simp [encodeFields, fieldsOf, Fields.and, Fields.ofWord]

theorem SpellsRow.cvAlphaw (present : Bool) (thr : Byte) : SpellsRow.Statement (.cvAlphaw present thr) := by
  refine spells_of_fields _ { mnemonic := "CV.ALPHAW", pattern := 0x0D00000000000000, mask := 0xFFFEFFFFFFFFFF00 } (by decide) rfl ?_
  simp [encodeFields, fieldsOf, Fields.and, Fields.ofWord, high_of_widened]
  cases present <;> decide

theorem SpellsRow.cvDraw (x y : Int) (alpha : Byte) : SpellsRow.Statement (.cvDraw x y alpha) := by
  refine spells_of_fields _ { mnemonic := "CV.DRAW", pattern := 0x0E00000000000000, mask := 0xFFFF00000000FF00 } (by decide) rfl ?_
  simp [encodeFields, fieldsOf, Fields.and, Fields.ofWord, high_of_widened]

theorem SpellsRow.vwClear (slot : Nat) : SpellsRow.Statement (.vwClear slot) := by
  refine spells_of_fields _ { mnemonic := "VW.CLEAR", pattern := 0x1000000000000000, mask := 0xFF0FFFFFFFFFFFFF } (by decide) rfl ?_
  simp [encodeFields, fieldsOf, Fields.and, Fields.ofWord]

theorem SpellsRow.vwFlip (slot : Nat) : SpellsRow.Statement (.vwFlip slot) := by
  refine spells_of_fields _ { mnemonic := "VW.FLIP", pattern := 0x1100000000000000, mask := 0xFF0FFFFFFFFFFFFF } (by decide) rfl ?_
  simp [encodeFields, fieldsOf, Fields.and, Fields.ofWord]

theorem SpellsRow.vwOffset (slot : Nat) (dx dy : Int) : SpellsRow.Statement (.vwOffset slot dx dy) := by
  refine spells_of_fields _ { mnemonic := "VW.OFFSET", pattern := 0x1200000000000000, mask := 0xFF0F00000000FFFF } (by decide) rfl ?_
  simp [encodeFields, fieldsOf, Fields.and, Fields.ofWord]

theorem SpellsRow.vwRot90 (slot : Nat) : SpellsRow.Statement (.vwRot90 slot) := by
  refine spells_of_fields _ { mnemonic := "VW.ROT90", pattern := 0x1300000000000000, mask := 0xFF0FFFFFFFFFFFFF } (by decide) rfl ?_
  simp [encodeFields, fieldsOf, Fields.and, Fields.ofWord]

theorem SpellsRow.vwBitslen (slot : Nat) : SpellsRow.Statement (.vwBitslen slot) := by
  refine spells_of_fields _ { mnemonic := "VW.BITSLEN", pattern := 0x1400000000000000, mask := 0xFF0FFFFFFFFFFFFF } (by decide) rfl ?_
  simp [encodeFields, fieldsOf, Fields.and, Fields.ofWord]

theorem SpellsRow.vwRead (slot : Nat) (row start stop : Int) : SpellsRow.Statement (.vwRead slot row start stop) := by
  refine spells_of_fields _ { mnemonic := "VW.READ", pattern := 0x1500000000000000, mask := 0xFF0F000000000000 } (by decide) rfl ?_
  simp [encodeFields, fieldsOf, Fields.and, Fields.ofWord]

theorem SpellsRow.vwReadrev (slot : Nat) (row start stop : Int) : SpellsRow.Statement (.vwReadrev slot row start stop) := by
  refine spells_of_fields _ { mnemonic := "VW.READREV", pattern := 0x1600000000000000, mask := 0xFF0F000000000000 } (by decide) rfl ?_
  simp [encodeFields, fieldsOf, Fields.and, Fields.ofWord]

theorem SpellsRow.bitidx (b : Int) : SpellsRow.Statement (.bitidx b) := by
  refine spells_of_fields _ { mnemonic := "BITIDX", pattern := 0x1700000000000000, mask := 0xFFFF0000FFFFFFFF } (by decide) rfl ?_
  simp [encodeFields, fieldsOf, Fields.and, Fields.ofWord]

theorem SpellsRow.drvPwm (d : Nat) (value : Byte) : SpellsRow.Statement (.drvPwm d value) := by
  refine spells_of_fields _ { mnemonic := "DRV.PWM", pattern := 0x2000000000000000, mask := 0xFF0FFFFFFFFFFF00 } (by decide) rfl ?_
  simp [encodeFields, fieldsOf, Fields.and, Fields.ofWord, high_of_widened]

theorem SpellsRow.drvM1rows (d startRow count : Nat) : SpellsRow.Statement (.drvM1rows d startRow count) := by
  refine spells_of_fields _ { mnemonic := "DRV.M1ROWS", pattern := 0x2100000000000000, mask := 0xFF0F00000000FFFF } (by decide) rfl ?_
  simp [encodeFields, fieldsOf, Fields.and, Fields.ofWord]

theorem SpellsRow.drvM2rows (d startRow count : Nat) : SpellsRow.Statement (.drvM2rows d startRow count) := by
  refine spells_of_fields _ { mnemonic := "DRV.M2ROWS", pattern := 0x2200000000000000, mask := 0xFF0F00000000FFFF } (by decide) rfl ?_
  simp [encodeFields, fieldsOf, Fields.and, Fields.ofWord]

theorem SpellsRow.drvUpdate (d : Nat) : SpellsRow.Statement (.drvUpdate d) := by
  refine spells_of_fields _ { mnemonic := "DRV.UPDATE", pattern := 0x2300000000000000, mask := 0xFF0FFFFFFFFFFFFF } (by decide) rfl ?_
  simp [encodeFields, fieldsOf, Fields.and, Fields.ofWord]

theorem SpellsRow.drvReset (d : Nat) : SpellsRow.Statement (.drvReset d) := by
  refine spells_of_fields _ { mnemonic := "DRV.RESET", pattern := 0x2400000000000000, mask := 0xFF0FFFFFFFFFFFFF } (by decide) rfl ?_
  simp [encodeFields, fieldsOf, Fields.and, Fields.ofWord]

theorem SpellsRow.drvModcfg (d : Nat) (mask value : Byte) : SpellsRow.Statement (.drvModcfg d mask value) := by
  refine spells_of_fields _ { mnemonic := "DRV.MODCFG", pattern := 0x2500000000000000, mask := 0xFF0FFFFFFFFF0000 } (by decide) rfl ?_
  simp [encodeFields, fieldsOf, Fields.and, Fields.ofWord]

theorem SpellsRow.drvModlit (d : Nat) (mask value : Byte) : SpellsRow.Statement (.drvModlit d mask value) := by
  refine spells_of_fields _ { mnemonic := "DRV.MODLIT", pattern := 0x2600000000000000, mask := 0xFF0FFFFFFFFF0000 } (by decide) rfl ?_
  simp [encodeFields, fieldsOf, Fields.and, Fields.ofWord]

theorem SpellsRow.drvCfg (d : Nat) : SpellsRow.Statement (.drvCfg d) := by
  refine spells_of_fields _ { mnemonic := "DRV.CFG", pattern := 0x2700000000000000, mask := 0xFF0FFFFFFFFFFFFF } (by decide) rfl ?_
  simp [encodeFields, fieldsOf, Fields.and, Fields.ofWord]

theorem SpellsRow.drvLit (d : Nat) : SpellsRow.Statement (.drvLit d) := by
  refine spells_of_fields _ { mnemonic := "DRV.LIT", pattern := 0x2800000000000000, mask := 0xFF0FFFFFFFFFFFFF } (by decide) rfl ?_
  simp [encodeFields, fieldsOf, Fields.and, Fields.ofWord]

theorem SpellsRow.tgtRender (d : Nat) (half : Half8x8) (slot : Nat) : SpellsRow.Statement (.tgtRender d half slot) := by
  refine spells_of_fields _ { mnemonic := "TGT.RENDER", pattern := 0x3000000000000000, mask := 0xFF0E0000FFFFFFFF } (by decide) rfl ?_
  simp [encodeFields, fieldsOf, Fields.and, Fields.ofWord]
  cases half <;> decide

theorem SpellsRow.scrRender : SpellsRow.Statement (.scrRender) := by
  refine spells_of_fields _ { mnemonic := "SCR.RENDER", pattern := 0x3100000000000000, mask := 0xFFFFFFFFFFFFFFFF } (by decide) rfl ?_
  simp [encodeFields, fieldsOf, Fields.and, Fields.ofWord]

theorem SpellsRow.scrReinit : SpellsRow.Statement (.scrReinit) := by
  refine spells_of_fields _ { mnemonic := "SCR.REINIT", pattern := 0x3200000000000000, mask := 0xFFFFFFFFFFFFFFFF } (by decide) rfl ?_
  simp [encodeFields, fieldsOf, Fields.and, Fields.ofWord]

end Sys2Proof.Laws
end

