-- ==== Sys2Proof/Laws/Reads.lean ====
section
/-! SUPPORT. What the compound operations depend on and do: reads through chains, the packing of ROT90, masked bytes and
driver writes. -/

namespace Sys2Proof.Machine

/-- The canvas byte depends on the store, the geometry and the parameters only. -/
theorem canvasByte_congr (s t : State) (hcv : t.cv = s.cv) (hw : t.width = s.width) (hh : t.height = s.height)
    (hp : t.par = s.par) (r j : Int) : t.canvasByte r j = s.canvasByte r j := by
  cases t
  simp only at hcv hw hh hp
  subst hcv hw hh hp
  rfl

/-- So does every read through a chain. -/
theorem readOuter_congr (s t : State) (h : ∀ r j, t.canvasByte r j = s.canvasByte r j) (c : List Stage) (d : Dir)
    (r a b : Int) : readOuter t c d r a b = readOuter s c d r a b := by
  induction c generalizing d r a b with
  | nil => cases d <;> simp only [readOuter] <;> (congr 1; funext j; simp [h])
  | cons g c ih => cases g <;> cases d <;> simp only [readOuter, ih]

/-- A target pulls the same bytes in states with the same canvas. -/
theorem pull_congr (s t : State) (h : ∀ r j, t.canvasByte r j = s.canvasByte r j) (c : List Stage) :
    pull t c = pull s c := by
  simp [pull, fwd, readOuter_congr s t h]

@[simp] theorem pull_length (s : State) (c : List Stage) : (pull s c).length = 8 := by
  simp [pull, Config.targetRows]

/-- Eight given booleans packed into a byte, the first in bit 0. -/
theorem packed_bit : ∀ b0 b1 b2 b3 b4 b5 b6 b7 : Bool, ∀ k < 8,
    ((List.range 8).foldl (fun out i => if [b0, b1, b2, b3, b4, b5, b6, b7].getD i false then out ||| (1#8 <<< i) else out)
      0x00#8).getLsbD k = [b0, b1, b2, b3, b4, b5, b6, b7].getD k false := by decide +kernel

/-- Bit `k` of a packed byte says whether source byte `k` has a bit of the mask. -/
theorem rotPack_getLsbD (src : Nat → Byte) (m : Byte) (k : Nat) (hk : k < 8) :
    (rotPack src m).getLsbD k = decide (src k &&& m ≠ 0) := by
  have h := packed_bit (decide (src 0 &&& m ≠ 0)) (decide (src 1 &&& m ≠ 0)) (decide (src 2 &&& m ≠ 0))
    (decide (src 3 &&& m ≠ 0)) (decide (src 4 &&& m ≠ 0)) (decide (src 5 &&& m ≠ 0)) (decide (src 6 &&& m ≠ 0))
    (decide (src 7 &&& m ≠ 0)) k hk
  have e : rotPack src m = (List.range 8).foldl (fun out i => if [decide (src 0 &&& m ≠ 0), decide (src 1 &&& m ≠ 0),
      decide (src 2 &&& m ≠ 0), decide (src 3 &&& m ≠ 0), decide (src 4 &&& m ≠ 0), decide (src 5 &&& m ≠ 0),
      decide (src 6 &&& m ≠ 0), decide (src 7 &&& m ≠ 0)].getD i false then out ||| (1#8 <<< i) else out) 0x00#8 := by
    simp [rotPack, List.range, List.range.loop, List.foldl]
  rw [e, h]
  rcases k with _ | _ | _ | _ | _ | _ | _ | _ | k <;> first | rfl | omega

/-- One bit of a masked byte: the new value's under the mask, the old one's elsewhere. -/
theorem masked_getLsbD (c m v : Byte) (k : Nat) (hk : k < 8) :
    (masked c m v).getLsbD k = if m.getLsbD k then v.getLsbD k else c.getLsbD k := by
  simp only [masked, BitVec.getLsbD_or, BitVec.getLsbD_and, BitVec.getLsbD_not]
  cases m.getLsbD k <;> simp [hk]

/-- A driver write that is answered completes by its answer. -/
theorem drvWrite_answered (d : Dev) (frame : List Byte) (onOk : State → State) (s : State)
    (h : ∀ k, s.busStall = some k → k ≠ s.busOut.length) (hok : ∀ t, (onOk t).busOut = t.busOut) :
    drvWrite d frame onOk s = .next (match s.nextAnswer with
      | .ok => (onOk (s.busWrite d frame)).respond .ok []
      | .err e => (s.busWrite d frame).respond .transport [e]) := by
  apply settle_answered
  intro k hk
  have := h k hk
  split <;> simp [State.busWrite, hok] <;> omega

/-- A driver write that is never answered waits. -/
theorem drvWrite_stalled (d : Dev) (frame : List Byte) (onOk : State → State) (s : State)
    (h : s.busStall = some s.busOut.length) (hok : ∀ t, (onOk t).busOut = t.busOut) :
    drvWrite d frame onOk s = .fault .waitBus := by
  unfold drvWrite settle
  rw [h]
  simp only
  rw [if_pos]
  refine ⟨Nat.le_refl _, ?_⟩
  split <;> simp [State.busWrite, hok]

/-! ### The write that is never answered decides only whether a command ends, not what it does -/

theorem renderFrame_busStall (d : Dev) (s : State) (b : Option Nat) :
    renderFrame d { s with busStall := b } = { renderFrame d s with busStall := b } := by
  have h (t : State) (c : List Stage) : pull { t with busStall := b } c = pull t c := pull_congr t { t with busStall := b } (fun _ _ => rfl) c
  have hp (t : State) : primFrame { t with busStall := b } d = primFrame t d := by simp only [primFrame, h]
  have hs (t : State) : secFrame { t with busStall := b } d = secFrame t d := by simp only [secFrame, h]
  have hw (t : State) (f : List Byte) :
      State.busWrite { t with busStall := b } d f = { t.busWrite d f with busStall := b } := rfl
  unfold renderFrame
  simp only [hp, hw, hs]
  rfl

theorem reinitConfig_busStall (d : Dev) (s : State) (b : Option Nat) :
    reinitConfig d { s with busStall := b } =
      ((reinitConfig d s).1, { (reinitConfig d s).2 with busStall := b }) := by
  unfold reinitConfig
  show (if isErr s.nextAnswer = true then _ else _) = _
  split <;> rfl

theorem reinitLighting_busStall (d : Dev) (s : State) (b : Option Nat) :
    reinitLighting d { s with busStall := b } =
      ((reinitLighting d s).1, { (reinitLighting d s).2 with busStall := b }) := by
  unfold reinitLighting
  show (if isErr s.nextAnswer = true then _ else _) = _
  split
  · rfl
  · exact reinitConfig_busStall d ((s.busWrite d (frameLighting (reinitLit s d))).setLit d (reinitLit s d)) b

theorem reinit_busStall (d : Dev) (s : State) (b : Option Nat) :
    reinit d { s with busStall := b } = ((reinit d s).1, { (reinit d s).2 with busStall := b }) := by
  unfold reinit
  show (if isErr s.nextAnswer = true then _ else _) = _
  split
  · rfl
  · exact reinitLighting_busStall d (s.busWrite d frameReset) b

/-- One device's part of SCR.RENDER does the same whatever write is never answered. -/
theorem renderDev_busStall (d : Dev) (s : State) (b : Option Nat) :
    renderDev d { s with busStall := b } = { renderDev d s with busStall := b } := by
  unfold renderDev
  rw [reinit_busStall]
  show (if pick s.needsReinit d = true then _ else _) = _
  split
  · dsimp only
    split
    · exact renderFrame_busStall d ((reinit d s).2.setReinit d false) b
    · rfl
  · exact renderFrame_busStall d s b

end Sys2Proof.Machine
end

