-- ==== Sys2Proof/Tests/Slice0.lean ====
section
/-! SUPPORT. Tests: ill-formed terms, the spec's encoded words, single steps of the spec's vectors, and a witness for the
hypotheses of every statement. -/

namespace Sys2Proof.Tests

open Sys2Proof.Machine

set_option Elab.async false -- one kernel check at a time, within the checker's memory

/-! ### Ill-formed operands are refused, one for each check -/

theorem test_illformed_cvNew_width : WellFormed (.cvNew 65536 0) = false := by decide
theorem test_illformed_cvNew_height : WellFormed (.cvNew 0 65536) = false := by decide
theorem test_illformed_cvRow_high : WellFormed (.cvRow 32768) = false := by decide
theorem test_illformed_cvRow_low : WellFormed (.cvRow (-32769)) = false := by decide
theorem test_illformed_cvRoww : WellFormed (.cvRoww 32768) = false := by decide
theorem test_illformed_cvByte_bx : WellFormed (.cvByte 32768 0) = false := by decide
theorem test_illformed_cvByte_y : WellFormed (.cvByte 0 (-32769)) = false := by decide
theorem test_illformed_cvBytew_bx : WellFormed (.cvBytew (-32769) 0 0) = false := by decide
theorem test_illformed_cvBytew_y : WellFormed (.cvBytew 0 32768 0) = false := by decide
theorem test_illformed_cvBit_x : WellFormed (.cvBit 32768 0) = false := by decide
theorem test_illformed_cvBit_y : WellFormed (.cvBit 0 32768) = false := by decide
theorem test_illformed_cvBitw_x : WellFormed (.cvBitw (-32769) 0 true) = false := by decide
theorem test_illformed_cvBitw_y : WellFormed (.cvBitw 0 (-32769) true) = false := by decide
theorem test_illformed_cvDraw_x : WellFormed (.cvDraw 32768 0 0) = false := by decide
theorem test_illformed_cvDraw_y : WellFormed (.cvDraw 0 32768 0) = false := by decide
theorem test_illformed_vwClear : WellFormed (.vwClear 16) = false := by decide
theorem test_illformed_vwFlip : WellFormed (.vwFlip 16) = false := by decide
theorem test_illformed_vwOffset_slot : WellFormed (.vwOffset 16 0 0) = false := by decide
theorem test_illformed_vwOffset_dx : WellFormed (.vwOffset 0 32768 0) = false := by decide
theorem test_illformed_vwOffset_dy : WellFormed (.vwOffset 0 0 (-32769)) = false := by decide
theorem test_illformed_vwRot90 : WellFormed (.vwRot90 16) = false := by decide
theorem test_illformed_vwBitslen : WellFormed (.vwBitslen 16) = false := by decide
theorem test_illformed_vwRead_slot : WellFormed (.vwRead 16 0 0 0) = false := by decide
theorem test_illformed_vwRead_row : WellFormed (.vwRead 0 32768 0 0) = false := by decide
theorem test_illformed_vwRead_start : WellFormed (.vwRead 0 0 32768 0) = false := by decide
theorem test_illformed_vwRead_stop : WellFormed (.vwRead 0 0 0 32768) = false := by decide
theorem test_illformed_vwReadrev_slot : WellFormed (.vwReadrev 16 0 0 0) = false := by decide
theorem test_illformed_vwReadrev_row : WellFormed (.vwReadrev 0 (-32769) 0 0) = false := by decide
theorem test_illformed_vwReadrev_start : WellFormed (.vwReadrev 0 0 (-32769) 0) = false := by decide
theorem test_illformed_vwReadrev_stop : WellFormed (.vwReadrev 0 0 0 (-32769)) = false := by decide
theorem test_illformed_bitidx : WellFormed (.bitidx (-32769)) = false := by decide
theorem test_illformed_drvPwm : WellFormed (.drvPwm 16 0) = false := by decide
theorem test_illformed_drvM1rows_unit : WellFormed (.drvM1rows 16 0 0) = false := by decide
theorem test_illformed_drvM1rows_row : WellFormed (.drvM1rows 0 65536 0) = false := by decide
theorem test_illformed_drvM1rows_count : WellFormed (.drvM1rows 0 0 65536) = false := by decide
theorem test_illformed_drvM2rows_unit : WellFormed (.drvM2rows 16 0 0) = false := by decide
theorem test_illformed_drvM2rows_row : WellFormed (.drvM2rows 0 65536 0) = false := by decide
theorem test_illformed_drvM2rows_count : WellFormed (.drvM2rows 0 0 65536) = false := by decide
theorem test_illformed_drvUpdate : WellFormed (.drvUpdate 16) = false := by decide
theorem test_illformed_drvReset : WellFormed (.drvReset 16) = false := by decide
theorem test_illformed_drvModcfg : WellFormed (.drvModcfg 16 0 0) = false := by decide
theorem test_illformed_drvModlit : WellFormed (.drvModlit 16 0 0) = false := by decide
theorem test_illformed_drvCfg : WellFormed (.drvCfg 16) = false := by decide
theorem test_illformed_drvLit : WellFormed (.drvLit 16) = false := by decide
theorem test_illformed_tgtRender_unit : WellFormed (.tgtRender 16 .primary 0) = false := by decide
theorem test_illformed_tgtRender_slot : WellFormed (.tgtRender 0 .primary 65536) = false := by decide

theorem test_wellformed_bounds : WellFormed (.vwRead 15 (-32768) 32767 (-1)) = true ∧
    WellFormed (.cvNew 65535 65535) = true := by decide

/-! ### Decoding: the words of 95_test_vectors.md V20, one for each command (and their encoding) -/

theorem test_decode_cvNew : decode 0x0100000800080000 = .ok (.cvNew 8 8) ∧ encode (.cvNew 8 8) = 0x0100000800080000 := by decide
theorem test_decode_cvWidth : decode 0x0200000000000000 = .ok (.cvWidth) ∧ encode (.cvWidth) = 0x0200000000000000 := by decide
theorem test_decode_cvHeight : decode 0x0300000000000000 = .ok (.cvHeight) ∧ encode (.cvHeight) = 0x0300000000000000 := by decide
theorem test_decode_cvCapw : decode 0x0400000000000000 = .ok (.cvCapw) ∧ encode (.cvCapw) = 0x0400000000000000 := by decide
theorem test_decode_cvCaph : decode 0x0500000000000000 = .ok (.cvCaph) ∧ encode (.cvCaph) = 0x0500000000000000 := by decide
theorem test_decode_cvRow : decode 0x0600FFFF00000000 = .ok (.cvRow (-1)) ∧ encode (.cvRow (-1)) = 0x0600FFFF00000000 := by decide
theorem test_decode_cvRoww : decode 0x0700000700000000 = .ok (.cvRoww 7) ∧ encode (.cvRoww 7) = 0x0700000700000000 := by decide
theorem test_decode_cvByte : decode 0x08000003FFFE0000 = .ok (.cvByte 3 (-2)) ∧ encode (.cvByte 3 (-2)) = 0x08000003FFFE0000 := by decide
theorem test_decode_cvBytew : decode 0x090000010001005A = .ok (.cvBytew 1 1 0x5A) ∧ encode (.cvBytew 1 1 0x5A) = 0x090000010001005A := by decide
theorem test_decode_cvBit : decode 0x0A00000400010000 = .ok (.cvBit 4 1) ∧ encode (.cvBit 4 1) = 0x0A00000400010000 := by decide
theorem test_decode_cvBitw : decode 0x0B00000500010001 = .ok (.cvBitw 5 1 true) ∧ encode (.cvBitw 5 1 true) = 0x0B00000500010001 := by decide
theorem test_decode_cvAlpha : decode 0x0C00000000000000 = .ok (.cvAlpha) ∧ encode (.cvAlpha) = 0x0C00000000000000 := by decide
theorem test_decode_cvAlphaw : decode 0x0D0100000000007F = .ok (.cvAlphaw true 0x7F) ∧ encode (.cvAlphaw true 0x7F) = 0x0D0100000000007F := by decide
theorem test_decode_cvAlphaw_none : decode 0x0D00000000000000 = .ok (.cvAlphaw false 0x00) ∧ encode (.cvAlphaw false 0x00) = 0x0D00000000000000 := by decide
theorem test_decode_cvDraw : decode 0x0E00FFFF000200C0 = .ok (.cvDraw (-1) 2 0xC0) ∧ encode (.cvDraw (-1) 2 0xC0) = 0x0E00FFFF000200C0 := by decide
theorem test_decode_vwClear : decode 0x1030000000000000 = .ok (.vwClear 3) ∧ encode (.vwClear 3) = 0x1030000000000000 := by decide
theorem test_decode_vwFlip : decode 0x1110000000000000 = .ok (.vwFlip 1) ∧ encode (.vwFlip 1) = 0x1110000000000000 := by decide
theorem test_decode_vwOffset : decode 0x1220FFFD00010000 = .ok (.vwOffset 2 (-3) 1) ∧ encode (.vwOffset 2 (-3) 1) = 0x1220FFFD00010000 := by decide
theorem test_decode_vwRot90 : decode 0x1300000000000000 = .ok (.vwRot90 0) ∧ encode (.vwRot90 0) = 0x1300000000000000 := by decide
theorem test_decode_vwBitslen : decode 0x1420000000000000 = .ok (.vwBitslen 2) ∧ encode (.vwBitslen 2) = 0x1420000000000000 := by decide
theorem test_decode_vwRead : decode 0x15100007FFFF0002 = .ok (.vwRead 1 7 (-1) 2) ∧ encode (.vwRead 1 7 (-1) 2) = 0x15100007FFFF0002 := by decide
theorem test_decode_vwReadrev : decode 0x1600000000000002 = .ok (.vwReadrev 0 0 0 2) ∧ encode (.vwReadrev 0 0 0 2) = 0x1600000000000002 := by decide
theorem test_decode_bitidx : decode 0x1700FFF700000000 = .ok (.bitidx (-9)) ∧ encode (.bitidx (-9)) = 0x1700FFF700000000 := by decide
theorem test_decode_drvPwm : decode 0x2010000000000040 = .ok (.drvPwm 1 0x40) ∧ encode (.drvPwm 1 0x40) = 0x2010000000000040 := by decide
theorem test_decode_drvM1rows : decode 0x2100000200030000 = .ok (.drvM1rows 0 2 3) ∧ encode (.drvM1rows 0 2 3) = 0x2100000200030000 := by decide
theorem test_decode_drvM2rows : decode 0x2210000000080000 = .ok (.drvM2rows 1 0 8) ∧ encode (.drvM2rows 1 0 8) = 0x2210000000080000 := by decide
theorem test_decode_drvUpdate : decode 0x2310000000000000 = .ok (.drvUpdate 1) ∧ encode (.drvUpdate 1) = 0x2310000000000000 := by decide
theorem test_decode_drvReset : decode 0x2400000000000000 = .ok (.drvReset 0) ∧ encode (.drvReset 0) = 0x2400000000000000 := by decide
theorem test_decode_drvModcfg : decode 0x2510000000001818 = .ok (.drvModcfg 1 0x18 0x18) ∧ encode (.drvModcfg 1 0x18 0x18) = 0x2510000000001818 := by decide
theorem test_decode_drvModlit : decode 0x2600000000000F0B = .ok (.drvModlit 0 0x0F 0x0B) ∧ encode (.drvModlit 0 0x0F 0x0B) = 0x2600000000000F0B := by decide
theorem test_decode_drvCfg : decode 0x2710000000000000 = .ok (.drvCfg 1) ∧ encode (.drvCfg 1) = 0x2710000000000000 := by decide
theorem test_decode_drvLit : decode 0x2800000000000000 = .ok (.drvLit 0) ∧ encode (.drvLit 0) = 0x2800000000000000 := by decide
theorem test_decode_tgtRender : decode 0x3011000200000000 = .ok (.tgtRender 1 .secondary 2) ∧ encode (.tgtRender 1 .secondary 2) = 0x3011000200000000 := by decide
theorem test_decode_scrRender : decode 0x3100000000000000 = .ok (.scrRender) ∧ encode (.scrRender) = 0x3100000000000000 := by decide
theorem test_decode_scrReinit : decode 0x3200000000000000 = .ok (.scrReinit) ∧ encode (.scrReinit) = 0x3200000000000000 := by decide

/-! ### Illegal words: 95_test_vectors.md V19 -/

theorem test_illegal_unassigned : (decode 0x0000000000000000).toOption = none ∧ (decode 0x0F00000000000000).toOption = none ∧
    (decode 0x1800000000000000).toOption = none ∧ (decode 0x2900000000000000).toOption = none ∧
    (decode 0x3300000000000000).toOption = none ∧ (decode 0xFFFFFFFFFFFFFFFF).toOption = none := by decide
theorem test_illegal_reserved_canvas : (decode 0x0200000000000001).toOption = none ∧
    (decode 0x0110000800080000).toOption = none ∧ (decode 0x0B00000000000002).toOption = none ∧
    (decode 0x0D03000000000001).toOption = none ∧ (decode 0x0701000000000000).toOption = none := by decide
theorem test_illegal_reserved_other : (decode 0x1051000000000000).toOption = none ∧
    (decode 0x2131000000010000).toOption = none ∧ (decode 0x2100000000010001).toOption = none ∧
    (decode 0x3000000000010000).toOption = none ∧ (decode 0x3210000000000000).toOption = none := by decide
theorem test_table_rows : opcodeTable.length = 34 ∧ decodeTableWord 64 0x3011000200000000 = some (.tgtRender 1 .secondary 2) := by decide
theorem test_bytes_of_word : wordOfBytes (bytesOfWord 0x0123456789ABCDEF ++ [0x77]) = some (0x0123456789ABCDEF, [0x77]) := by decide

/-! ### Single steps -/

/-- The next state an execution answers, if it answers one. -/
def nextOf : Exec → Option State
  | .next t => some t
  | .fault _ => none
  | .refused _ => none

/-- The fault an execution answers, if it answers one. -/
def faultOf : Exec → Option Fault
  | .fault f => some f
  | .next _ => none
  | .refused _ => none

/-- A field of the next state. -/
def got {α : Type} (o : Exec) (f : State → α) : Option α := (nextOf o).map f

/-- The state after reset with a canvas of the given size and contents and an `ok` bus. -/
def canvas (w h : Nat) (cv : Memory) : State :=
  { State.reset with
    width := BitVec.ofNat 16 w, height := BitVec.ofNat 16 h, cv := cv, busIn := List.replicate 12 .ok }

/-- A response with status OK. -/
def okay (data : List Byte) : Option (Option Response) := some (some { status := .ok, data := data })

/-- A response with another status. -/
def failed (st : Status) : Option (Option Response) := some (some { status := st, data := [] })

/-- The 8x8 canvas of V4 (95_test_vectors.md, the source's scenario 4). -/
def scenario4 : State :=
  canvas 8 8 [(0, 0xFF), (4, 0x53), (8, 0x20), (12, 0x10), (16, 0x08), (20, 0x04), (24, 0x02), (28, 0x01)]

/-- V3's canvas (the source's scenario 3). -/
def scenario3 : State := canvas 8 8 [(12, 0xE8), (28, 0xAC)]

/-- V7 and R102: width first, and a canvas as large as the capacity is legal. -/
theorem test_cvNew : got (exec (.cvNew 33 9) State.reset) (·.response) = failed .widthCap ∧
    got (exec (.cvNew 32 8) State.reset) (fun t => (t.width, t.height)) = some (32, 8) := by decide +kernel
/-- R102: the store and the threshold are cleared. -/
theorem test_cvNew_clears : got (exec (.cvNew 8 8) { scenario4 with alphaSet := true, alphaThr := 9 }) (fun t => (t.cv, t.alphaSet, t.alphaThr)) =
    some ([], false, 0) := by decide +kernel
/-- R76: high byte first. -/
theorem test_cvWidth : got (exec .cvWidth (canvas 300 8 [])) (·.response) = okay [0x01, 0x2C] := by decide +kernel
/-- R104. -/
theorem test_cvHeight : got (exec .cvHeight (canvas 15 2 [])) (·.response) = okay [0x00, 0x02] := by decide +kernel
/-- R105, reference parameters. -/
theorem test_cvCapw : got (exec .cvCapw State.reset) (·.response) = okay [0x00, 0x20] := by decide +kernel
/-- R106. -/
theorem test_cvCaph : got (exec .cvCaph State.reset) (·.response) = okay [0x00, 0x08] := by decide +kernel
/-- V2. -/
theorem test_cvRow : got (exec (.cvRow 1) (canvas 15 2 [(5, 0x5A)])) (·.response) = okay [0x00, 0x5A] := by decide +kernel
/-- R107: a negative row. -/
theorem test_cvRow_outside : got (exec (.cvRow (-1)) (canvas 15 2 [])) (·.response) = failed .yOob := by decide +kernel
/-- R108. -/
theorem test_cvRoww : got (exec (.cvRoww 1) { canvas 15 2 [] with payIn := [1, 2, 3] }) (fun t => (t.cv, t.payIn)) =
    some ([(4, 1), (5, 2)], [3]) := by decide +kernel
/-- R74: the payload is consumed on Y_OOB too. -/
theorem test_cvRoww_outside : got (exec (.cvRoww 2) { canvas 15 2 [] with payIn := [1, 2, 3] }) (fun t => (t.cv, t.payIn, t.response)) =
    some ([], [3], some { status := .yOob, data := [] }) := by decide +kernel
/-- V1. -/
theorem test_cvByte : got (exec (.cvByte 0 1) (canvas 8 8 [(4, 0x0C)])) (·.response) = okay [0x0C] := by decide +kernel
/-- R100: the column first. -/
theorem test_cvByte_outside : got (exec (.cvByte 1 8) (canvas 8 8 [])) (·.response) = failed .xOob := by decide +kernel
/-- V2. -/
theorem test_cvBytew : got (exec (.cvBytew 1 1 0x5A) (canvas 15 2 [])) (·.cv) = some [(5, 0x5A)] := by decide +kernel
/-- the canonical form lists no 0x00. -/
theorem test_cvBytew_zero : got (exec (.cvBytew 1 1 0x00) (canvas 15 2 [(5, 0x5A)])) (·.cv) = some [] := by decide +kernel
/-- V2: pixels 14 and 15 of byte 0x5A. -/
theorem test_cvBit : got (exec (.cvBit 14 1) (canvas 15 2 [(5, 0x5A)])) (·.response) = okay [0x01] ∧
    got (exec (.cvBit 15 1) (canvas 15 2 [(5, 0x5A)])) (·.response) = failed .xOob := by decide +kernel
/-- V1: pixel 4 is bit 3. -/
theorem test_cvBitw : got (exec (.cvBitw 4 1 true) (canvas 8 8 [])) (·.cv) = some [(4, 0x08)] := by decide +kernel
/-- R112. -/
theorem test_cvBitw_clear : got (exec (.cvBitw 0 0 false) (canvas 8 8 [(0, 0xFF)])) (·.cv) = some [(0, 0x7F)] := by decide +kernel
/-- R113. -/
theorem test_cvAlpha : got (exec .cvAlpha { State.reset with alphaSet := true, alphaThr := 0x7F }) (·.response) = okay [0x01, 0x7F] := by decide +kernel
/-- R114: present = 0 clears the threshold byte. -/
theorem test_cvAlphaw : got (exec (.cvAlphaw false 0x55) { State.reset with alphaSet := true, alphaThr := 0x7F }) (fun t => (t.alphaSet, t.alphaThr)) =
    some (false, 0x00) := by decide +kernel
/-- R115: the comparison is strict. -/
theorem test_cvDraw : got (exec (.cvDraw 0 0 0x7F) { canvas 8 8 [] with alphaSet := true, alphaThr := 0x7F }) (·.cv) = some [] ∧
    got (exec (.cvDraw 0 0 0x80) { canvas 8 8 [] with alphaSet := true, alphaThr := 0x7F }) (·.cv) = some [(0, 0x80)] := by decide +kernel
/-- R115: dropped with OK. -/
theorem test_cvDraw_outside : got (exec (.cvDraw (-1) 2 0xC0) (canvas 8 8 [])) (fun t => (t.cv, t.response)) =
    some ([], some { status := .ok, data := [] }) := by decide +kernel
/-- R145 and V19 row 16. -/
theorem test_vwClear : got (exec (.vwClear 0) { State.reset with slots := [[.flip], [.rot90], [], []] }) (·.slots) = some [[], [.rot90], [], []] ∧
    got (exec (.vwClear 5) State.reset) (·.response) = failed .badUnit := by decide +kernel
/-- R146: the fifth stage. -/
theorem test_vwFlip : got (exec (.vwFlip 1) { State.reset with slots := [[], List.replicate 4 .flip, [], []] }) (·.response) = failed .depthFull ∧
    got (exec (.vwFlip 1) { State.reset with slots := [[], List.replicate 3 .flip, [], []] }) (·.slots) =
      some [[], List.replicate 4 .flip, [], []] := by decide +kernel
/-- R147. -/
theorem test_vwOffset : got (exec (.vwOffset 2 (-3) 1) State.reset) (·.slots) = some [[], [], [.offset (-3) 1], []] := by decide +kernel
/-- R148: a stage is appended at the end. -/
theorem test_vwRot90 : got (exec (.vwRot90 0) { State.reset with slots := [[.flip], [], [], []] }) (·.slots) = some [[.flip, .rot90], [], [], []] := by decide +kernel
/-- R149. -/
theorem test_vwBitslen : got (exec (.vwBitslen 0) { canvas 15 2 [] with slots := [[.rot90], [], [], []] }) (·.response) = okay [0x00, 0x0F] := by decide +kernel
/-- V3, both orders. -/
theorem test_vwRead_flip_offset : got (exec (.vwRead 0 7 0 1) { scenario3 with slots := [[.flip, .offset 1 0], [], [], []] }) (·.response) = okay [0x35] ∧
    got (exec (.vwRead 0 3 0 1) { scenario3 with slots := [[.offset (-1) 0, .flip], [], [], []] }) (·.response) = okay [0x17] := by decide +kernel
/-- V4. -/
theorem test_vwRead_rot90 : got (exec (.vwRead 0 7 0 1) { scenario4 with slots := [[.rot90], [], [], []] }) (·.response) = okay [0x83] ∧
    got (exec (.vwRead 0 2 0 1) { scenario4 with slots := [[.rot90], [], [], []] }) (·.response) = okay [0x05] := by decide +kernel
/-- R134: the canvas in reverse, 0x00 outside. -/
theorem test_vwReadrev : got (exec (.vwReadrev 3 7 (-1) 2) scenario3) (·.response) = okay [0x00, 0x35, 0x00] := by decide +kernel
/-- R143. -/
theorem test_vwReadrev_rot90 : got (exec (.vwReadrev 0 0 0 1) { scenario4 with slots := [[.rot90], [], [], []] }) (·.response) = failed .unsupported := by decide +kernel
/-- V5. -/
theorem test_bitidx : got (exec (.bitidx (-9)) State.reset) (·.response) = okay [0xFF, 0xFE, 0x07] ∧
    got (exec (.bitidx (-8)) State.reset) (·.response) = okay [0xFF, 0xFF, 0x00] := by decide +kernel
/-- R161. -/
theorem test_drvPwm : got (exec (.drvPwm 1 0x40) (canvas 8 8 [])) (·.busOut) =
    some [{ addr := 0x61, frame := [0x19, 0xC0], answer := .ok }] := by decide +kernel
/-- R160: the one byte the bus returned. -/
theorem test_drvPwm_error : got (exec (.drvPwm 0 0xFF) { State.reset with busIn := [.err 0x19] }) (·.response) =
    some (some { status := .transport, data := [0x19] }) := by decide +kernel
/-- R162. -/
theorem test_drvM1rows : got (exec (.drvM1rows 0 10 1) { canvas 8 8 [] with payIn := [0xAA, 0xBB] }) (fun t => (t.busOut, t.payIn)) =
    some ([{ addr := 0x63, frame := [0x0B, 0xAA], answer := .ok }], [0xBB]) := by decide +kernel
/-- R162: the payload is consumed. -/
theorem test_drvM1rows_range : got (exec (.drvM1rows 0 10 2) { canvas 8 8 [] with payIn := [0xAA, 0xBB] }) (fun t => (t.response, t.payIn, t.busOut)) =
    some (some { status := .payloadRange, data := [] }, [], []) := by decide +kernel
/-- R163. -/
theorem test_drvM2rows : got (exec (.drvM2rows 1 2 1) { canvas 8 8 [] with payIn := [0xAA] }) (·.busOut) =
    some [{ addr := 0x61, frame := [0x10, 0xAA], answer := .ok }] := by decide +kernel
/-- R216: too few payload bytes. -/
theorem test_drvM2rows_waits : faultOf (exec (.drvM2rows 1 2 1) (canvas 8 8 [])) = some .waitPayload := by decide +kernel
/-- R164. -/
theorem test_drvUpdate : got (exec (.drvUpdate 1) (canvas 8 8 [])) (·.busOut) = some [{ addr := 0x61, frame := [0x0C, 0x00], answer := .ok }] := by decide +kernel
/-- R165. -/
theorem test_drvReset : got (exec (.drvReset 0) (canvas 8 8 [])) (·.busOut) = some [{ addr := 0x63, frame := [0xFF, 0x00], answer := .ok }] := by decide +kernel
/-- R166: unmasked bits stay. -/
theorem test_drvModcfg : got (exec (.drvModcfg 1 0x18 0x18) { canvas 8 8 [] with drv := ⟨⟨0, 0⟩, ⟨0x83, 0x55⟩⟩ }) (fun t => (t.drv.d1, t.busOut)) =
    some (⟨0x9B, 0x55⟩, [{ addr := 0x61, frame := [0x00, 0x9B], answer := .ok }]) := by decide +kernel
/-- R166: the cache stays on err. -/
theorem test_drvModcfg_error : got (exec (.drvModcfg 1 0x18 0x18) { State.reset with busIn := [.err 1] }) (·.drv.d1) = some ⟨0x00, 0x00⟩ := by decide +kernel
/-- R167. -/
theorem test_drvModlit : got (exec (.drvModlit 0 0x0F 0x0B) { canvas 8 8 [] with drv := ⟨⟨1, 0x74⟩, ⟨0, 0⟩⟩ }) (fun t => (t.drv.d0, t.busOut)) =
    some (⟨1, 0x7B⟩, [{ addr := 0x63, frame := [0x0D, 0x7B], answer := .ok }]) := by decide +kernel
/-- R168. -/
theorem test_drvCfg : got (exec (.drvCfg 1) { State.reset with drv := ⟨⟨1, 2⟩, ⟨3, 4⟩⟩ }) (·.response) = okay [3] ∧
    got (exec (.drvCfg 2) State.reset) (·.response) = failed .badUnit := by decide +kernel
/-- R169. -/
theorem test_drvLit : got (exec (.drvLit 0) { State.reset with drv := ⟨⟨1, 2⟩, ⟨3, 4⟩⟩ }) (·.response) = okay [2] := by decide +kernel
/-- R191 over V4's bytes. -/
theorem test_tgtRender : got (exec (.tgtRender 1 .secondary 2) { scenario4 with slots := [[], [], [.rot90], []] }) (·.busOut) =
    some [{ addr := 0x61, frame := [0x0E, 0x01, 0x03, 0x05, 0x0B, 0x11, 0x21, 0x43, 0x83], answer := .ok }] := by decide +kernel
/-- R195 from reset: the whole sequence on both devices. -/
theorem test_scrRender_cold : got (exec .scrRender (canvas 8 8 [])) (fun t => (t.busOut.map (fun w => w.frame.headD 0), t.needsReinit)) =
    some ([0xFF, 0x0D, 0x00, 0x01, 0x0E, 0x0C, 0xFF, 0x0D, 0x00, 0x01, 0x0E, 0x0C], ⟨false, false⟩) := by decide +kernel
/-- R193 to R195: a failed reset stops device 0, a failed frame sets the flag of device 1. -/
theorem test_scrRender_failures : got (exec .scrRender { canvas 8 8 [] with needsReinit := ⟨true, false⟩, busIn := [.err 5, .err 5, .ok, .ok] })
      (fun t => (t.busOut.map (fun w => w.frame.headD 0), t.needsReinit, t.response)) =
    some ([0xFF, 0x01, 0x0E, 0x0C], ⟨true, true⟩, some { status := .ok, data := [] }) := by decide +kernel
/-- R196. -/
theorem test_scrReinit : got (exec .scrReinit State.reset) (·.response) = okay [0x03] ∧
    got (exec .scrReinit { State.reset with needsReinit := ⟨false, true⟩ }) (·.response) = okay [0x02] := by decide +kernel
/-- R240, R241: the registers at reset values, the trace kept. -/
theorem test_reset_event : got (step { scenario4 with hostIn := [.reset], n := 9, busOut := [⟨0x63, [1], .ok⟩] }) (fun t => (t.cv, t.width, t.n, t.busOut)) =
    some ([], 0, 0, [⟨0x63, [1], .ok⟩]) := by decide +kernel
/-- V19 row 17: ILLEGAL before BAD_UNIT, its payload consumed. -/
theorem test_illegal_step : got (step { State.reset with hostIn := [.command 0x2131000000010000 [0x01]] }) (fun t => (t.response, t.payIn, t.n)) =
    some (some { status := .illegal, data := [] }, [], 1) := by decide +kernel
/-- R216. -/
theorem test_waits : faultOf (step State.reset) = some .waitCommand ∧
    faultOf (exec .scrRender { canvas 8 8 [] with busStall := some 1 }) = some .waitBus := by decide +kernel

/-- Every table word runs as the first command after reset. -/
theorem test_rows_run_from_reset :
    opcodeTable.all (fun r => match step (State.reset.withFetchWord 64 r.pattern.toNat) with
      | .next _ => true
      | _ => false) = true := by decide +kernel

/-! ### Witnesses: a state and operands that meet the hypotheses of each statement -/

/-- A state within the invariant: a 10x3 canvas, every kind of chain, flags and cached bytes set, a command and a reset
to come, twelve `ok` answers. Slot 3 cannot be read forward, slot 2 is full. -/
def demo : State :=
  { State.reset with
    cv := [(0, 0xA5), (1, 0xC0), (4, 0x5A), (8, 0x0F), (9, 0x40)]
    width := 10, height := 3, alphaSet := true, alphaThr := 0x80
    slots := [[.flip, .offset 1 0], [.rot90], List.replicate 4 .flip, [.rot90, .flip]]
    drv := { d0 := { cfg := 0x81, lit := 0x70 }, d1 := { cfg := 0x03, lit := 0x05 } }
    needsReinit := { d0 := true, d1 := false }
    n := 7, payIn := [0x11, 0x22, 0x33]
    hostIn := [.command 0x0600000200000000 [0x44], .reset]
    busIn := List.replicate 12 .ok }

/-- `demo` with a bus that answers `err` first. -/
def demoErr : State := { demo with busIn := .err 0x19 :: List.replicate 11 .ok }

/-- `demo` with the next bus write never answered. -/
def demoStall : State := { demo with busStall := some 0 }

/-- `demo` with its threshold unset. -/
def demoUnset : State := { demo with alphaSet := false, alphaThr := 0x00 }

/-- The demo state meets the invariant. -/
theorem demo_inv : demo.Inv := by decide +kernel

theorem witness_DecodeOfEncode :
    WellFormed (.vwRead 15 (-32768) 32767 (-1)) = true ∧ WellFormed (.drvM1rows 15 65535 65535) = true := by decide
theorem witness_EncodeOfDecode : decode 0x15F08000FFFF7FFF = .ok (.vwRead 15 (-32768) (-1) 32767) := by decide
theorem witness_DecodeAgreesWithOpcodeTable :
    decode 0x1420000000000000 = .ok (.vwBitslen 2) ∧
    (opcodeTable.any (fun r => r.mnemonic == "VW.BITSLEN" && r.spells 0x1420000000000000)) = true := by decide
theorem witness_StepRunsDecodedCommand :
    demo.hostIn = .command 0x0600000200000000 [0x44] :: [.reset] ∧ decode 0x0600000200000000 = .ok (.cvRow 2) := by decide
theorem witness_IllegalWordOnlyConsumesItsPayload :
    spellsNone 0x0701000000000000 ∧ payloadLen 0x0701000000000000 demo = 2 ∧ spellsNone 0x0000000000000000 ∧
    spellsNone 0x0F00000000000000 ∧ spellsNone 0x1800000000000000 ∧ spellsNone 0x1F00000000000000 ∧
    spellsNone 0x2900000000000000 ∧ spellsNone 0x2F00000000000000 ∧ spellsNone 0x3300000000000000 ∧
    ({ mnemonic := "CV.ROWW", pattern := 0x0700000000000000, mask := 0xFFFF0000FFFFFFFF } : OpRow) ∈ opcodeTable ∧
    (0xFFFF0000FFFFFFFF : CmdWord).getLsbD 48 = true ∧ (0x0700000000000000 : CmdWord).getLsbD 48 = false ∧
    (0x0701000000000000 : CmdWord).getLsbD 48 = true := by decide +kernel
theorem witness_IllegalWordOnlyConsumesItsPayload_host :
    { demo with hostIn := [.command 0x0701000000000000 []] }.hostIn = .command 0x0701000000000000 [] :: [] ∧
    payloadLen 0x0701000000000000 { demo with hostIn := [.command 0x0701000000000000 []] } ≤
      ({ demo with hostIn := [.command 0x0701000000000000 []] }.payIn ++ []).length := by decide +kernel
/-- Each of the four outcomes happens: a next state, and the three waits. -/
theorem witness_OnlyTheStuckWaitsGiveNoAnswer :
    (nextOf (step demo)).isSome = true ∧ faultOf (step { demo with hostIn := [] }) = some .waitCommand ∧
    faultOf (step { demo with hostIn := [.command 0x2100000000040000 []] }) = some .waitPayload ∧
    faultOf (step { demoStall with hostIn := [.command 0x2300000000000000 []] }) = some .waitBus := by decide +kernel
theorem witness_UnansweredWriteLeavesTheBlockWaiting :
    devOf 1 = some .d1 ∧ demoStall.busStall = some demoStall.busOut.length ∧
    demoStall.payIn = [0x11, 0x22, 0x33] ++ [] ∧ 8 + [(0x11 : Byte), 0x22, 0x33].length ≤ 11 ∧
    demoStall.payIn = [0x11] ++ [0x22, 0x33] ∧ 10 + [(0x11 : Byte)].length ≤ 11 ∧
    1 < demoStall.par.viewSlots ∧ supported (demoStall.chain 1) .fwd = true ∧
    { demo with busStall := some 1 }.busStall = some ({ demo with busStall := some 1 }.busOut.length + 1) := by decide +kernel
theorem witness_ResetGivesEveryRegisterItsValue :
    { demo with hostIn := [.reset, .reset] }.hostIn = .reset :: [.reset] := by decide
theorem witness_ResetMeetsTheInvariant :
    Params.reference.legal ∧
    ({ Params.reference with capW := 32760, capH := 32767, viewSlots := 16, viewDepth := 255 } : Params).legal ∧
    ({ Params.reference with capW := 8, capH := 1, viewSlots := 1, viewDepth := 1 } : Params).legal := by decide
theorem witness_EveryStepKeepsTheInvariant : demo.Inv ∧ (nextOf (step demo)).isSome = true := by decide +kernel
theorem witness_HardwiredRegistersNeverChange :
    (nextOf (step demo)).isSome = true ∧ (nextOf (step { demo with hostIn := [.reset] })).isSome = true := by decide +kernel
/-- A command for each register changes it. -/
theorem witness_EachRegisterHasItsOwnWriters :
    (got (exec (.cvBytew 0 0 0) demo) (fun t => decide (t.cv ≠ demo.cv))) = some true ∧
    (got (exec (.cvNew 8 8) demo) (fun t => decide (t.width ≠ demo.width ∧ t.height ≠ demo.height))) = some true ∧
    (got (exec (.cvAlphaw false 0) demo) (fun t => decide (t.alphaSet ≠ demo.alphaSet ∧ t.alphaThr ≠ demo.alphaThr))) = some true ∧
    (got (exec (.vwClear 0) demo) (fun t => decide (t.slots ≠ demo.slots))) = some true ∧
    (got (exec (.vwClear 0) demo) (fun t => decide (t.chain 0 ≠ demo.chain 0))) = some true ∧
    (got (exec (.drvModcfg 0 0xFF 0) demo) (fun t => decide ((pick t.drv .d0).cfg ≠ (pick demo.drv .d0).cfg))) = some true ∧
    (got (exec (.drvModlit 1 0xFF 0) demo) (fun t => decide ((pick t.drv .d1).lit ≠ (pick demo.drv .d1).lit))) = some true ∧
    (got (exec .scrRender demo) (fun t => decide ((pick t.drv .d0).cfg ≠ (pick demo.drv .d0).cfg ∧
      (pick t.drv .d0).lit ≠ (pick demo.drv .d0).lit))) = some true ∧
    (got (exec .scrRender demo) (fun t => decide (t.needsReinit ≠ demo.needsReinit))) = some true := by decide +kernel
theorem witness_FailedCommandsChangeNoState :
    got (exec (.cvRow 3) demo) (·.response) = failed .yOob ∧
    got (exec (.drvUpdate 0) demoErr) (·.response) = some (some { status := .transport, data := [0x19] }) ∧
    (nextOf (exec .scrRender demoErr)).isSome = true := by decide +kernel
theorem witness_EveryCommandAnswersOnceAndTakesItsPayload :
    (nextOf (exec (.cvRoww 2) demo)).isSome = true ∧ commandPayload demo (.cvRoww 2) = 2 ∧
    (nextOf (exec (.drvM2rows 0 0 3) demo)).isSome = true ∧ (nextOf (exec (.drvM1rows 2 0 3) demo)).isSome = true := by decide +kernel
/-- Every status of the code table is reached by a command, ILLEGAL by a word that spells none. -/
theorem witness_StatusesComeOnlyFromTheirCommands :
    got (exec (.cvNew 33 1) demo) (·.response) = failed .widthCap ∧
    got (exec (.cvNew 32 9) demo) (·.response) = failed .heightCap ∧
    got (exec (.cvBit 10 2) demo) (·.response) = failed .xOob ∧ got (exec (.cvBit 9 3) demo) (·.response) = failed .yOob ∧
    got (exec (.vwRead 3 0 0 1) demo) (·.response) = failed .unsupported ∧
    got (exec (.drvReset 1) demoErr) (·.response) = some (some { status := .transport, data := [0x19] }) ∧
    got (exec (.drvM1rows 0 11 0) demo) (·.response) = failed .payloadRange ∧
    got (exec (.vwFlip 2) demo) (·.response) = failed .depthFull ∧
    got (exec (.drvCfg 2) demo) (·.response) = failed .badUnit ∧
    got (step { demo with hostIn := [.command 0x3300000000000000 []] }) (·.response) = failed .illegal ∧
    spellsNone 0x3300000000000000 := by decide +kernel
theorem witness_DataOfAFailedCommand :
    got (exec (.tgtRender 0 .primary 1) demoErr) (fun t => (t.response, t.busOut.map (·.answer))) =
      some (some { status := .transport, data := [0x19] }, [.err 0x19]) ∧
    got (exec (.tgtRender 0 .primary 4) demoErr) (·.response) = failed .badUnit := by decide +kernel
theorem witness_DataLengthOfAFinishedCommand :
    got (exec (.cvRow 2) demo) (·.response) = okay [0x0F, 0x40] ∧
    got (exec (.vwRead 0 0 3 3) demo) (·.response) = okay [] ∧
    got (exec (.vwReadrev 0 0 5 2) demo) (·.response) = okay [] := by decide +kernel
theorem witness_BusWritesAreFramesAnsweredInOrder :
    got (exec (.drvM1rows 0 0 3) demo) (fun t => t.busOut.map (fun w => w.frame.length)) = some [4] ∧
    got (exec (.drvM1rows 0 0 11) { demo with payIn := List.replicate 11 1 }) (fun t => t.busOut.map (fun w => w.frame.length)) =
      some [12] ∧
    got (exec (.drvM1rows 0 0 0) demo) (fun t => t.busOut.map (fun w => w.frame.length)) = some [1] := by decide +kernel
theorem witness_DriverCommandsWriteOnceAndLast :
    isDriver (.drvPwm 0 1) = true ∧ got (exec (.drvPwm 0 1) demo) (·.response) = okay [] ∧
    got (exec (.drvPwm 0 1) demoErr) (·.response) = some (some { status := .transport, data := [0x19] }) ∧
    got (exec (.drvPwm 2 1) demo) (·.response) = failed .badUnit := by decide +kernel
theorem witness_CvNewResult :
    demo.par.capW < 33 ∧ 32 ≤ demo.par.capW ∧ demo.par.capH < 9 ∧ demo.par.legal ∧ 8 ≤ demo.par.capH := by decide +kernel
theorem witness_CvRowResult : demo.liveRow 0 ∧ demo.liveRow 2 ∧ ¬ demo.liveRow 3 ∧ ¬ demo.liveRow (-1) := by decide +kernel
theorem witness_CvRowwResult :
    demo.cv.wf = true ∧ demo.payIn = [0x11, 0x22] ++ [0x33] ∧ [(0x11 : Byte), 0x22].length = demo.rowLen ∧
    demo.liveRow 2 ∧ ¬ demo.liveRow 3 := by decide +kernel
theorem witness_ByteAndPixelReads :
    demo.liveRow 2 ∧ demo.liveByte 0 ∧ demo.liveByte 1 ∧ demo.livePixel 0 ∧ demo.livePixel 9 := by decide +kernel
theorem witness_CvBytewResult : demo.cv.wf = true ∧ demo.liveByte 1 ∧ demo.liveRow 0 := by decide +kernel
theorem witness_CvBitwResult : demo.cv.wf = true ∧ demo.livePixel 9 ∧ demo.liveRow 2 := by decide +kernel
theorem witness_OutOfBoundsRefusals :
    columnOf demo (.cvByte 2 2) = some (2, 2, 2) ∧ ¬ ((0 : Int) ≤ 2 ∧ (2 : Int) < (2 : Nat)) ∧ demo.liveRow 2 ∧
    columnOf demo (.cvBit 9 3) = some (9, 10, 3) ∧ ((0 : Int) ≤ 9 ∧ (9 : Int) < (10 : Nat)) ∧ ¬ demo.liveRow 3 ∧
    columnOf demo (.cvBitw (-1) (-1) true) = some (-1, 10, -1) ∧ ¬ ((0 : Int) ≤ -1 ∧ (-1 : Int) < (10 : Nat)) ∧
    ¬ demo.liveRow (-1) ∧ demo.par.oobOrder = .xFirst ∧
    { demo with par := { demo.par with oobOrder := .yFirst } }.par.oobOrder = .yFirst ∧
    ¬ { demo with par := { demo.par with oobOrder := .yFirst } }.liveRow (-1) ∧
    columnOf { demo with par := { demo.par with oobOrder := .yFirst } } (.cvBytew 2 (-1) 0) = some (2, 2, -1) ∧
    demo.rowLen ≤ demo.payIn.length := by decide +kernel
theorem witness_CvDrawResult :
    ¬ (demo.livePixel 10 ∧ demo.liveRow 2) ∧ demo.cv.wf = true ∧ demo.livePixel 9 ∧ demo.liveRow 2 ∧
    demo.alphaSet = true ∧ (0x80 : Byte) = demo.alphaThr := by decide +kernel
theorem witness_CvDrawResult_unset :
    demoUnset.cv.wf = true ∧ demoUnset.livePixel 0 ∧ demoUnset.liveRow 0 ∧ demoUnset.alphaSet = false ∧
    demoUnset.par.alphaUnset = none := by decide +kernel
theorem witness_CvDrawResult_parameter :
    { demoUnset with par := { demo.par with alphaUnset := some 0x10 } }.livePixel 0 ∧
    { demoUnset with par := { demo.par with alphaUnset := some 0x10 } }.liveRow 0 ∧
    { demoUnset with par := { demo.par with alphaUnset := some 0x10 } }.alphaSet = false ∧
    { demoUnset with par := { demo.par with alphaUnset := some 0x10 } }.par.alphaUnset = some 0x10 := by decide +kernel
theorem witness_PixelWriteReadsBack : demo.cv.wf = true ∧ demo.livePixel 9 ∧ demo.liveRow 2 := by decide +kernel
theorem witness_PixelWritesAreIndependent :
    demo.Inv ∧ demo.livePixel 9 ∧ demo.liveRow 2 ∧ demo.livePixel 8 ∧ ((8 : Int), (2 : Int)) ≠ (9, 2) := by decide +kernel
theorem witness_StoreIsZeroOutsideTheLiveRegion :
    demo.Inv ∧ (2 : Int) < (demo.stride : Int) ∧ ¬ (demo.liveRow 0 ∧ demo.liveByte 2) ∧
    ¬ (demo.liveRow 3 ∧ demo.liveByte 0) ∧ demo.addr 1 2 = demo.addr 1 2 := by decide +kernel
theorem witness_VwClearResult : demo.slots.length = demo.par.viewSlots ∧ 3 < demo.par.viewSlots := by decide +kernel
theorem witness_VwAppendResult :
    demo.slots.length = demo.par.viewSlots ∧ (demo.chain 0).length < demo.par.viewDepth ∧
    (demo.chain 2).length = demo.par.viewDepth ∧ 2 < demo.par.viewSlots := by decide +kernel
theorem witness_VwBitslenResult : 3 < demo.par.viewSlots := by decide +kernel
theorem witness_VwReadResult :
    1 < demo.par.viewSlots ∧ supported (demo.chain 1) .fwd = true ∧ supported (demo.chain 3) .fwd = false := by decide +kernel
theorem witness_VwReadrevResult :
    3 < demo.par.viewSlots ∧ supported (demo.chain 3) .rev = true ∧ supported (demo.chain 1) .rev = false := by decide +kernel
theorem witness_BadUnitRefusals :
    viewSlotOf (.vwRot90 4) = some 4 ∧ demo.par.viewSlots ≤ 4 ∧ driverUnitOf (.drvM1rows 2 0 3) = some 2 ∧
    commandPayload demo (.drvM1rows 2 0 3) ≤ demo.payIn.length := by decide +kernel
theorem witness_ReadsAgreeWithThePointwiseForm :
    supported (demo.chain 0) .fwd = true ∧ supported (demo.chain 1) .fwd = true ∧
    supported (demo.chain 3) .rev = true := by decide +kernel
theorem witness_ReadsHaveTheirRangesLength :
    supported (demo.chain 1) .fwd = true ∧ supported (demo.chain 3) .rev = true := by decide +kernel
theorem witness_EmptyCanvasReadsZeroThroughEveryChain :
    State.reset.width.toNat = 0 ∧ { demo with height := 0 }.height.toNat = 0 := by decide +kernel
theorem witness_ViewLawsOfFlipAndOffset : supported (demo.chain 1) .fwd = true := by decide +kernel
theorem witness_FourRotationsAreTheIdentity :
    scenario4.height.toNat = 8 ∧ scenario4.rowLen = 1 ∧ (0 : Int) ≤ 7 ∧ (7 : Int) ≤ 7 := by decide +kernel
theorem witness_SingleRegisterDriverWrites :
    devOf 0 = some .d0 ∧ demo.answeredFor 1 ∧ demo.nextAnswer = .ok ∧ demoErr.nextAnswer = .err 0x19 ∧
    demoErr.answeredFor 1 ∧ { demo with busStall := some 1 }.answeredFor 1 := by decide +kernel
theorem witness_MatrixWindowWrites :
    devOf 1 = some .d1 ∧ demo.payIn = [0x11, 0x22, 0x33] ++ [] ∧ 8 + [(0x11 : Byte), 0x22, 0x33].length ≤ 11 ∧
    11 < 9 + [(0x11 : Byte), 0x22, 0x33].length ∧ demo.answeredFor 1 ∧ demo.nextAnswer = .ok ∧
    demoErr.payIn = [0x11] ++ [0x22, 0x33] ∧ 10 + [(0x11 : Byte)].length ≤ 11 ∧ demoErr.nextAnswer = .err 0x19 := by
  decide +kernel
theorem witness_CachedByteModification :
    devOf 0 = some .d0 ∧ demo.answeredFor 1 ∧ demo.nextAnswer = .ok ∧ demoErr.nextAnswer = .err 0x19 := by decide +kernel
theorem witness_CachedByteReads : devOf 1 = some .d1 ∧ devOf 0 = some .d0 := by decide
theorem witness_FieldSettersPreserveAndRepeat :
    setterField (.drvCurrent 0 0x0B) = some (0, 0x0F, true) ∧ setterField (.drvDispmode 1 .both) = some (1, 0x18, false) ∧
    devOf 0 = some .d0 ∧ demo.answeredFor 2 ∧ demo.busIn = .ok :: .ok :: List.replicate 10 .ok := by decide +kernel
theorem witness_TgtRenderResult :
    devOf 1 = some .d1 ∧ 3 < demo.par.viewSlots ∧ supported (demo.chain 1) .fwd = true ∧
    supported (demo.chain 3) .fwd = false ∧ demo.answeredFor 1 ∧ demo.nextAnswer = .ok ∧
    demoErr.nextAnswer = .err 0x19 := by decide +kernel
theorem witness_ScrRenderFollowsTheDeviceSequences :
    demo.answeredFor 12 ∧ { demo with busStall := some 12 }.answeredFor 12 := by decide +kernel
theorem witness_ScreenFlagTellsWhetherAllWritesWereAnsweredOk : demoErr.answeredFor 12 := by decide +kernel
theorem witness_ScreenHealsWhenTheBusAnswersOk :
    demo.answeredFor 12 ∧ demo.busIn = List.replicate 12 .ok ++ [] := by decide +kernel
/-- The live pixel next to the width, a padding column of the same byte, and a byte column and a row that are not live. -/
theorem witness_WhatEachHalfShows :
    (1 : Nat) < 8 ∧ (2 : Nat) < 8 ∧ demo.livePixel (8 * 1 + ((1 : Nat) : Int)) ∧ demo.liveRow ((2 : Nat) : Int) ∧
    ¬ demo.livePixel (8 * 1 + ((2 : Nat) : Int)) ∧ ¬ (demo.liveRow ((2 : Nat) : Int) ∧ demo.liveByte 2) ∧
    ¬ (demo.liveRow ((3 : Nat) : Int) ∧ demo.liveByte 1) := by decide +kernel
/-- A window write that is answered, one that is not, and a render of nine writes with the tenth never answered. -/
theorem witness_BusCommandsFinishOrWait :
    (got (exec (.drvM1rows 0 0 2) { demo with busStall := none }) (fun t => t.busOut.length)) = some 1 ∧
    { demo with busStall := some 1 }.answeredFor (1 - demo.busOut.length) ∧
    ¬ { demo with busStall := some 0 }.answeredFor (1 - demo.busOut.length) ∧
    (got (exec .scrRender { demo with busStall := none }) (fun t => t.busOut.length)) = some 9 ∧
    { demo with busStall := some 9 }.answeredFor (9 - demo.busOut.length) ∧
    ¬ { demo with busStall := some 9 }.answeredFor 12 ∧
    ¬ { demo with busStall := some 8 }.answeredFor (9 - demo.busOut.length) := by decide +kernel


end Sys2Proof.Tests
end

/-! Illegal words (30_encoding.md R73): the decoder rejects every word that spells no row of the opcode table, a word spells at
most the one row of its own opcode, and a step on a rejected word only consumes its payload. -/

namespace Sys2Proof.Encoding

open Sys2Proof.Machine

/-! ### Reserved bits of a field -/

/-- Two appends are equal exactly when their parts are. -/
theorem append_eq_append_iff {m n : Nat} (x x' : BitVec m) (y y' : BitVec n) :
    x ++ y = x' ++ y' ↔ x = x' ∧ y = y' := by
  constructor
  · intro h
    have high := congrArg (BitVec.extractLsb' (n + 0) m) h
    have low := congrArg (BitVec.extractLsb' 0 n) h
    rw [extract_append_high, extract_append_high, extract_all, extract_all] at high
    rw [extract_append_low, extract_append_low] at low
    exact ⟨high, low⟩
  · rintro ⟨rfl, rfl⟩
    rfl

theorem fields_c_eq_zero_iff (f : Fields) : f.c = 0#16 ↔ f.ch = 0#8 ∧ f.cl = 0#8 :=
  append_eq_append_iff f.ch 0 f.cl 0

/-- The reserved bits of C in CV.BITW's row are C[15:8] and the upper seven bits of C[7:0]. -/
theorem fields_c_and_eq_zero_iff (f : Fields) : f.c &&& 0xFFFE#16 = 0#16 ↔ f.ch = 0#8 ∧ f.cl &&& 0xFE#8 = 0#8 := by
  have masked_bytes : f.c &&& 0xFFFE#16 = (f.ch &&& 0xFF#8) ++ (f.cl &&& 0xFE#8) :=
    BitVec.and_append (x₁ := f.ch) (x₂ := 0xFF#8) (y₁ := f.cl) (y₂ := 0xFE#8)
  have high_kept : f.ch &&& 0xFF#8 = f.ch := BitVec.and_allOnes
  rw [masked_bytes, high_kept]
  exact append_eq_append_iff f.ch 0 (f.cl &&& 0xFE#8) 0

/-! ### The row of an opcode -/

/-- The row of the opcode table whose opcode is `op`. -/
def rowOf (op : BitVec 8) : Option OpRow := opcodeTable.find? (fun r => (Fields.ofWord r.pattern).op == op)

theorem mem_of_rowOf {op : BitVec 8} {r : OpRow} (h : rowOf op = some r) : r ∈ opcodeTable :=
  List.mem_of_find?_eq_some h

/-- No two rows share an opcode. -/
theorem rowOf_pattern_op : ∀ r ∈ opcodeTable, rowOf (Fields.ofWord r.pattern).op = some r := by decide

/-- Every row fixes all the bits of OP. -/
theorem mask_op_eq_allOnes : ∀ r ∈ opcodeTable, (Fields.ofWord r.mask).op = BitVec.allOnes 8 := by decide

/-- The assigned opcodes (30_encoding.md R72): four blocks, one for each family. -/
theorem pattern_op_assigned : ∀ r ∈ opcodeTable,
    (0x01 ≤ (Fields.ofWord r.pattern).op.toNat ∧ (Fields.ofWord r.pattern).op.toNat ≤ 0x0E) ∨
    (0x10 ≤ (Fields.ofWord r.pattern).op.toNat ∧ (Fields.ofWord r.pattern).op.toNat ≤ 0x17) ∨
    (0x20 ≤ (Fields.ofWord r.pattern).op.toNat ∧ (Fields.ofWord r.pattern).op.toNat ≤ 0x28) ∨
    (0x30 ≤ (Fields.ofWord r.pattern).op.toNat ∧ (Fields.ofWord r.pattern).op.toNat ≤ 0x32) := by decide

theorem op_eq_of_spells {r : OpRow} {w : CmdWord} (hr : r ∈ opcodeTable) (h : r.spells w = true) :
    (Fields.ofWord w).op = (Fields.ofWord r.pattern).op := by
  have masked_op : (Fields.ofWord w).op &&& (Fields.ofWord r.mask).op = (Fields.ofWord r.pattern).op :=
    congrArg Fields.op ((OpRow.spells_iff r w).mp h)
  rwa [mask_op_eq_allOnes r hr, BitVec.and_allOnes] at masked_op

/-- A word spells no row but that of its own opcode. -/
theorem eq_of_spells {r r' : OpRow} {w : CmdWord} (hr : r ∈ opcodeTable) (hr' : r' ∈ opcodeTable)
    (hop : (Fields.ofWord w).op = (Fields.ofWord r.pattern).op) (h : r'.spells w = true) : r' = r := by
  have same_op : (Fields.ofWord r'.pattern).op = (Fields.ofWord r.pattern).op := (op_eq_of_spells hr' h).symm.trans hop
  have same_row := rowOf_pattern_op r' hr'
  rw [same_op, rowOf_pattern_op r hr] at same_row
  exact (Option.some.inj same_row).symm

/-- A word that spells a row has the row's value in every bit of the row's mask. -/
theorem getLsbD_of_spells {r : OpRow} {w : CmdWord} {k : Nat} (h : r.spells w = true) (hk : r.mask.getLsbD k = true) :
    w.getLsbD k = r.pattern.getLsbD k := by
  have masked_word : w &&& r.mask = r.pattern := beq_iff_eq.mp h
  rw [← masked_word, BitVec.getLsbD_and, hk, Bool.and_true]

theorem spellsNone_iff (w : CmdWord) : spellsNone w ↔ ∀ r ∈ opcodeTable, ¬ r.spells w = true := by
  simp [spellsNone]

/-! ### A word that decodes spells a row -/

theorem ifClear_eq_ok_iff (clear : Bool) (op : BitVec 8) (i j : Instr) :
    ifClear clear op i = .ok j ↔ clear = true ∧ i = j := by
  cases clear <;> simp [ifClear]

theorem eq_ofNat_of_toNat_eq {n k : Nat} {x : BitVec n} (h : x.toNat = k) : x = BitVec.ofNat n k := by
  simp [← h]

/-- The reserved bits an arm of the opcode map tests are the bits that the mask of its opcode's row keeps beside OP
(30_encoding.md R72, R73). -/
theorem decodeFields_ok {f : Fields} {i : Instr} (h : decodeFields f = .ok i) :
    ∃ r, rowOf f.op = some r ∧ r.mnemonic = i.mnemonic ∧
      f.and (Fields.ofWord r.mask) = Fields.ofWord r.pattern := by
  obtain ⟨op, u, k, a, b, ch, cl⟩ := f
  unfold decodeFields at h
  split at h
  case h_35 => cases h
  all_goals
    next hop =>
    obtain rfl := eq_ofNat_of_toNat_eq hop
    obtain ⟨hclear, rfl⟩ := (ifClear_eq_ok_iff ..).mp h
    simp only [Bool.and_eq_true, beq_iff_eq, fields_c_eq_zero_iff, fields_c_and_eq_zero_iff,
      BitVec.ofNat_eq_ofNat] at hclear
    refine ⟨_, rfl, rfl, ?_⟩
    simp [hclear, Fields.and, Fields.ofWord]

theorem decode_ok_spells {w : CmdWord} {i : Instr} (h : decode w = .ok i) :
    ∃ r ∈ opcodeTable, r.mnemonic = i.mnemonic ∧ r.spells w = true := by
  obtain ⟨r, hrow, hname, hfields⟩ := decodeFields_ok h
  exact ⟨r, mem_of_rowOf hrow, hname, (OpRow.spells_iff r w).mpr hfields⟩

theorem decode_error_of_spellsNone {w : CmdWord} (h : spellsNone w) : ∃ e, decode w = .error e := by
  cases hd : decode w with
  | error e => exact ⟨e, rfl⟩
  | ok i =>
    obtain ⟨r, hr, -, hspells⟩ := decode_ok_spells hd
    exact absurd hspells ((spellsNone_iff w).mp h r hr)

/-! ### The step on an illegal word -/

@[simp] theorem payloadLen_accept (w : CmdWord) (s : State) (p : List Byte) (rest : List HostEvent) :
    payloadLen w (s.accept p rest) = payloadLen w s := rfl

theorem step_of_decode_error {s : State} {w : CmdWord} {p : List Byte} {rest : List HostEvent} {e : DecodeError}
    (hs : s.hostIn = .command w p :: rest) (hd : decode w = .error e) :
    step s = illegalWord w (s.accept p rest) := by
  simp [step, hs, hd]

/-- An illegal word whose payload is there: the payload is consumed and ILLEGAL raised, nothing else (30_encoding.md R73). -/
theorem illegalWord_ready {w : CmdWord} {s : State} (h : payloadLen w s ≤ s.payIn.length) :
    illegalWord w s = .next (State.respond { s with payIn := s.payIn.drop (payloadLen w s) } .illegal []) :=
  withPayload_ready _ s _ h

/-! ### The obligation -/

/-- Settles O6: a word that spells no row is rejected by the decoder, so the step is `illegalWord`; an unassigned opcode is no
row's, and a reserved bit that is set contradicts the one row of the word's opcode. -/
theorem illegalWordOnlyConsumesItsPayload : Obligations.IllegalWordOnlyConsumesItsPayload := by
  refine ⟨?_, ?_, ?_⟩
  · intro s w p rest hs hnone hlen
    obtain ⟨e, hd⟩ := decode_error_of_spellsNone hnone
    rw [step_of_decode_error hs hd, illegalWord_ready hlen]
    rfl
  · intro w hop
    rw [spellsNone_iff]
    intro r hr hspells
    have assigned := pattern_op_assigned r hr
    rw [← op_eq_of_spells hr hspells] at assigned
    omega
  · intro w r k hr hop _ hmask hpattern hbit
    rw [spellsNone_iff]
    intro r' hr' hspells
    obtain rfl := eq_of_spells hr hr' hop hspells
    have pattern_bit := getLsbD_of_spells hspells hmask
    simp [hbit, hpattern] at pattern_bit

end Sys2Proof.Encoding

/-! The canvas commands (40_canvas.md R100 to R116): what each answers in bounds, the status of each bounds check, and the
bytes and pixels a write leaves in the store. -/

namespace Sys2Proof.Canvas

open Sys2Proof.Machine

/-! ### The arm of each command -/

theorem exec_cvNew (w h : Nat) (s : State) : exec (.cvNew w h) s = execCvNew w h s := rfl
theorem exec_cvWidth (s : State) : exec .cvWidth s = finish (be16 s.width) s := rfl
theorem exec_cvHeight (s : State) : exec .cvHeight s = finish (be16 s.height) s := rfl
theorem exec_cvCapw (s : State) : exec .cvCapw s = finish (be16 (BitVec.ofNat 16 s.par.capW)) s := rfl
theorem exec_cvCaph (s : State) : exec .cvCaph s = finish (be16 (BitVec.ofNat 16 s.par.capH)) s := rfl
theorem exec_cvRow (y : Int) (s : State) :
    exec (.cvRow y) s = orRaise (checkRow s y) s (finish (s.readRow y) s) := rfl
theorem exec_cvRoww (y : Int) (s : State) :
    exec (.cvRoww y) s =
      withPayload s.rowLen s (fun p s => orRaise (checkRow s y) s (finish [] (s.writeBytes y 0 p))) := rfl
theorem exec_cvByte (bx y : Int) (s : State) :
    exec (.cvByte bx y) s = orRaise (checkCol s bx s.rowLen y) s (finish [s.memRead y bx] s) := rfl
theorem exec_cvBytew (bx y : Int) (v : Byte) (s : State) :
    exec (.cvBytew bx y v) s = orRaise (checkCol s bx s.rowLen y) s (finish [] (s.memWrite y bx v)) := rfl
theorem exec_cvBit (x y : Int) (s : State) :
    exec (.cvBit x y) s = orRaise (checkCol s x s.width.toNat y) s (finish [s.readPixel x y] s) := rfl
theorem exec_cvBitw (x y : Int) (v : Bool) (s : State) :
    exec (.cvBitw x y v) s = orRaise (checkCol s x s.width.toNat y) s (finish [] (s.writePixel x y v)) := rfl
theorem exec_cvAlpha (s : State) : exec .cvAlpha s = finish [flagByte s.alphaSet, s.alphaThr] s := rfl
theorem exec_cvAlphaw (present : Bool) (thr : Byte) (s : State) :
    exec (.cvAlphaw present thr) s =
      finish [] { s with alphaSet := present, alphaThr := if present then thr else 0x00 } := rfl
theorem exec_cvDraw (x y : Int) (alpha : Byte) (s : State) : exec (.cvDraw x y alpha) s = execCvDraw x y alpha s := rfl

/-! ### The bounds checks (R100) -/

theorem checkRow_of_not_liveRow {s : State} {y : Int} (hy : ¬ s.liveRow y) : checkRow s y = some .yOob := if_neg hy

theorem checkCol_of_only_column_out {s : State} {x y : Int} {limit : Nat} (hx : ¬ (0 ≤ x ∧ x < (limit : Int)))
    (hy : s.liveRow y) : checkCol s x limit y = some .xOob := by
  cases horder : s.par.oobOrder <;> simp [checkCol, horder, hx, hy]

theorem checkCol_of_only_row_out {s : State} {x y : Int} {limit : Nat} (hx : 0 ≤ x ∧ x < (limit : Int))
    (hy : ¬ s.liveRow y) : checkCol s x limit y = some .yOob := by
  cases horder : s.par.oobOrder <;> simp [checkCol, horder, hx, hy]

/-- The status when column and row are both out of bounds, as OOB_ORDER says. -/
def bothOut : OobOrder → Status
  | .xFirst => .xOob
  | .yFirst => .yOob

theorem checkCol_of_both_out {s : State} {x y : Int} {limit : Nat} {order : OobOrder}
    (hx : ¬ (0 ≤ x ∧ x < (limit : Int))) (hy : ¬ s.liveRow y) (horder : s.par.oobOrder = order) :
    checkCol s x limit y = some (bothOut order) := by
  cases order <;> simp [checkCol, bothOut, horder, hx, hy]

/-- A command with a column and a row ends with the status its bounds check raises. -/
theorem exec_of_checkCol_some {s : State} {i : Instr} {x y : Int} {limit : Nat} {st : Status}
    (hi : columnOf s i = some (x, limit, y)) (hst : checkCol s x limit y = some st) :
    exec i s = .next (s.respond st []) := by
  cases i <;> cases hi
  case cvByte => rw [exec_cvByte, hst, orRaise_some, raise]
  case cvBytew => rw [exec_cvBytew, hst, orRaise_some, raise]
  case cvBit => rw [exec_cvBit, hst, orRaise_some, raise]
  case cvBitw => rw [exec_cvBitw, hst, orRaise_some, raise]

theorem exec_cvRow_of_not_liveRow {s : State} {y : Int} (hy : ¬ s.liveRow y) :
    exec (.cvRow y) s = .next (s.respond .yOob []) := by
  rw [exec_cvRow, checkRow_of_not_liveRow hy, orRaise_some, raise]

/-! ### Commands in bounds -/

/-- The byte that holds a live pixel is live. -/
theorem liveByte_of_livePixel {s : State} {x : Int} (hx : s.livePixel x) : s.liveByte (x / 8) := by
  obtain ⟨hlow, hhigh⟩ := hx
  simp only [State.liveByte, State.rowLen, ceil8]
  omega

theorem exec_cvRow_of_liveRow {s : State} {y : Int} (hy : s.liveRow y) :
    exec (.cvRow y) s = .next (s.respond .ok (s.readRow y)) := by
  rw [exec_cvRow, (checkRow_none s y).mpr hy, orRaise_none, finish]

theorem exec_cvByte_of_live {s : State} {bx y : Int} (hx : s.liveByte bx) (hy : s.liveRow y) :
    exec (.cvByte bx y) s = .next (s.respond .ok [s.memRead y bx]) := by
  rw [exec_cvByte, (checkCol_none s bx s.rowLen y).mpr ⟨hx, hy⟩, orRaise_none, finish]

theorem exec_cvBit_of_live {s : State} {x y : Int} (hx : s.livePixel x) (hy : s.liveRow y) :
    exec (.cvBit x y) s = .next (s.respond .ok [s.readPixel x y]) := by
  rw [exec_cvBit, (checkCol_none s x s.width.toNat y).mpr ⟨hx, hy⟩, orRaise_none, finish]

theorem exec_cvBitw_of_live {s : State} {x y : Int} (v : Bool) (hx : s.livePixel x) (hy : s.liveRow y) :
    exec (.cvBitw x y v) s = .next ((s.writePixel x y v).respond .ok []) := by
  rw [exec_cvBitw, (checkCol_none s x s.width.toNat y).mpr ⟨hx, hy⟩, orRaise_none, finish]

/-- CV.ROWW takes exactly the L bytes in front of the payload stream, whatever its row. -/
theorem exec_cvRoww_payload {s : State} {y : Int} {p q : List Byte} (hpay : s.payIn = p ++ q)
    (hlen : p.length = s.rowLen) :
    exec (.cvRoww y) s =
      orRaise (checkRow s y) { s with payIn := q } (finish [] (State.writeBytes { s with payIn := q } y 0 p)) := by
  have ready : s.rowLen ≤ s.payIn.length := by rw [hpay, List.length_append]; omega
  rw [exec_cvRoww, withPayload_ready _ _ _ ready, hpay, ← hlen, List.take_left, List.drop_left]
  rfl

theorem exec_cvRoww_of_liveRow {s : State} {y : Int} {p q : List Byte} (hpay : s.payIn = p ++ q)
    (hlen : p.length = s.rowLen) (hy : s.liveRow y) :
    exec (.cvRoww y) s = .next ((State.writeBytes { s with payIn := q } y 0 p).respond .ok []) := by
  rw [exec_cvRoww_payload hpay hlen, (checkRow_none s y).mpr hy, orRaise_none, finish]

theorem exec_cvRoww_of_not_liveRow {s : State} {y : Int} {p q : List Byte} (hpay : s.payIn = p ++ q)
    (hlen : p.length = s.rowLen) (hy : ¬ s.liveRow y) :
    exec (.cvRoww y) s = .next (State.respond { s with payIn := q } .yOob []) := by
  rw [exec_cvRoww_payload hpay hlen, checkRow_of_not_liveRow hy, orRaise_some, raise]

/-! ### Bytes of a row -/

/-- The bytes of a row stand one after the other (10_state.md R24). -/
theorem addr_add (s : State) {y j : Int} (hy : 0 ≤ y) (hj : 0 ≤ j) (k : Nat) :
    s.addr y (j + k) = s.addr y j + k := by
  have row_start : 0 ≤ y * (s.stride : Int) := Int.mul_nonneg hy (Int.natCast_nonneg _)
  simp only [State.addr]
  omega

/-- A run of byte writes leaves every address outside the run alone. -/
theorem read_writeBytes_outside {s : State} {y j : Int} {p : List Byte} {a : Nat} (hwf : s.cv.wf = true) (hy : 0 ≤ y)
    (hj : 0 ≤ j) (ha : a < s.addr y j ∨ s.addr y j + p.length ≤ a) :
    (s.writeBytes y j p).cv.read a = s.cv.read a := by
  induction p generalizing s j with
  | nil => rfl
  | cons v rest ih =>
    have next_addr : (s.memWrite y j v).addr y (j + 1) = s.addr y j + 1 := addr_add s hy hj 1
    rw [List.length_cons] at ha
    calc ((s.memWrite y j v).writeBytes y (j + 1) rest).cv.read a
      _ = (s.memWrite y j v).cv.read a :=
        ih (Memory.wf_write s.cv _ v hwf) (by omega) (by omega)
      _ = s.cv.read a := Memory.read_write_other s.cv _ a v hwf (by omega)

/-- A run of byte writes puts its bytes at the run's addresses, in order. -/
theorem read_writeBytes_inside {s : State} {y j : Int} {p : List Byte} (hwf : s.cv.wf = true) (hy : 0 ≤ y)
    (hj : 0 ≤ j) (k : Nat) (hk : k < p.length) : (s.writeBytes y j p).cv.read (s.addr y j + k) = p[k] := by
  induction p generalizing s j k with
  | nil => exact absurd hk (Nat.not_lt_zero k)
  | cons v rest ih =>
    have hwf' := Memory.wf_write s.cv (s.addr y j) v hwf
    have next_addr : (s.memWrite y j v).addr y (j + 1) = s.addr y j + 1 := addr_add s hy hj 1
    cases k with
    | zero =>
      calc ((s.memWrite y j v).writeBytes y (j + 1) rest).cv.read (s.addr y j)
        _ = (s.memWrite y j v).cv.read (s.addr y j) :=
          read_writeBytes_outside hwf' hy (by omega) (by omega)
        _ = v := Memory.read_write_same s.cv _ v hwf
    | succ k =>
      have rest_read := ih (s := s.memWrite y j v) (j := j + 1) hwf' (by omega) k (Nat.lt_of_succ_lt_succ hk)
      rw [next_addr, Nat.add_right_comm] at rest_read
      exact rest_read

theorem intRange_zero (n : Nat) : intRange 0 n = (List.range n).map (fun (j : Nat) => (j : Int)) := by simp [intRange]

/-- The L bytes of a row, as R107 lists them. -/
theorem readRow_eq_map_range (s : State) (y : Int) :
    s.readRow y = (List.range ((s.width.toNat + 7) / 8)).map (fun (j : Nat) => s.memRead y (j : Int)) := by
  rw [State.readRow, intRange_zero, List.map_map]
  rfl

/-! ### One pixel of a byte (20_memory.md R52) -/

theorem getLsbD_shifted_top_bit : ∀ n < 8, ∀ k < 8, (0x80#8 >>> n).getLsbD k = decide (k = 7 - n) := by decide

/-- The mask of a pixel has one bit, counted from the left. -/
theorem getLsbD_pixelMask (x : Int) {k : Nat} (hk : k < 8) :
    (pixelMask x).getLsbD k = decide (k = 7 - (x % 8).toNat) :=
  getLsbD_shifted_top_bit _ (by omega) k hk

/-- A bit under the mask becomes the new value, any other stays. -/
theorem getLsbD_putMask (b m : Byte) (v : Bool) {k : Nat} (hk : k < 8) :
    (putMask b m v).getLsbD k = if m.getLsbD k then v else b.getLsbD k := by
  cases v with
  | false =>
    rw [putMask, if_neg Bool.false_ne_true, BitVec.getLsbD_and, BitVec.getLsbD_not]
    cases m.getLsbD k <;> simp [hk]
  | true =>
    rw [putMask, if_pos rfl, BitVec.getLsbD_or]
    cases m.getLsbD k <;> simp

theorem shiftRight_and_one (b : Byte) (n : Nat) : (b >>> n) &&& 1#8 = if b.getLsbD n then 0x01 else 0x00 := by
  rw [BitVec.and_one_eq_setWidth_ofBool_getLsbD, BitVec.getLsbD_ushiftRight, Nat.add_zero]
  cases b.getLsbD n <;> rfl

theorem readPixel_eq_getLsbD (s : State) (x y : Int) :
    s.readPixel x y = if (s.memRead y (x / 8)).getLsbD (7 - (x % 8).toNat) then 0x01 else 0x00 :=
  shiftRight_and_one _ _

theorem memRead_writePixel {s : State} (x y : Int) (v : Bool) (hwf : s.cv.wf = true) :
    (s.writePixel x y v).memRead y (x / 8) = putMask (s.memRead y (x / 8)) (pixelMask x) v :=
  Memory.read_write_same s.cv _ _ hwf

/-- Writing a pixel of a canonical store changes that one bit of the store (R112). -/
theorem pixelWritten_writePixel {s : State} (x y : Int) (v : Bool) (hwf : s.cv.wf = true) :
    pixelWritten s (s.writePixel x y v) x y v := by
  rw [pixelWritten, memRead_writePixel x y v hwf]
  refine ⟨?_, ?_, ?_⟩
  · rw [getLsbD_putMask _ _ _ (by omega), getLsbD_pixelMask x (by omega)]
    simp
  · intro k hk hother
    rw [getLsbD_putMask _ _ _ hk, getLsbD_pixelMask x hk]
    simp [hother]
  · intro a ha
    exact Memory.read_write_other s.cv _ a _ hwf ha.symm

/-! ### The threshold of CV.DRAW (R115) -/

theorem threshold_eq_some {s : State} {thr : Byte}
    (h : (s.alphaSet = true ∧ thr = s.alphaThr) ∨ (s.alphaSet = false ∧ s.par.alphaUnset = some thr)) :
    s.threshold = some thr := by
  obtain ⟨hset, hthr⟩ | ⟨hset, hthr⟩ := h <;> simp [State.threshold, hset, hthr]

theorem threshold_eq_none {s : State} (hset : s.alphaSet = false) (hunset : s.par.alphaUnset = none) :
    s.threshold = none := by
  simp [State.threshold, hset, hunset]

theorem exec_cvDraw_outside {s : State} {x y : Int} (alpha : Byte) (h : ¬ (s.livePixel x ∧ s.liveRow y)) :
    exec (.cvDraw x y alpha) s = .next (s.respond .ok []) := by
  rw [exec_cvDraw, execCvDraw, if_neg h, finish]

theorem exec_cvDraw_of_threshold {s : State} {x y : Int} {thr : Byte} (alpha : Byte) (hx : s.livePixel x)
    (hy : s.liveRow y) (hthr : s.threshold = some thr) :
    exec (.cvDraw x y alpha) s = .next ((s.writePixel x y (decide (thr.toNat < alpha.toNat))).respond .ok []) := by
  rw [exec_cvDraw, execCvDraw, if_pos ⟨hx, hy⟩, hthr]
  rfl

theorem exec_cvDraw_of_no_threshold {s : State} {x y : Int} (alpha : Byte) (hx : s.livePixel x)
    (hy : s.liveRow y) (hthr : s.threshold = none) :
    exec (.cvDraw x y alpha) s = .next (State.respond
      { s.writePixel x y (Config.freePixel s.draws) with draws := s.draws + 1 } .ok []) := by
  rw [exec_cvDraw, execCvDraw, if_pos ⟨hx, hy⟩, hthr]
  rfl

/-! ### CV.NEW (R102) -/

theorem exec_cvNew_widthCap {s : State} {w : Nat} (h : Nat) (hw : s.par.capW < w) :
    exec (.cvNew w h) s = .next (s.respond .widthCap []) := by
  rw [exec_cvNew, execCvNew, if_pos hw, orRaise_some, raise]

theorem exec_cvNew_heightCap {s : State} {w h : Nat} (hw : w ≤ s.par.capW) (hh : s.par.capH < h) :
    exec (.cvNew w h) s = .next (s.respond .heightCap []) := by
  rw [exec_cvNew, execCvNew, if_neg (Nat.not_lt.mpr hw), if_pos hh, orRaise_some, raise]

theorem exec_cvNew_of_fits {s : State} {w h : Nat} (hw : w ≤ s.par.capW) (hh : h ≤ s.par.capH) :
    exec (.cvNew w h) s = .next (State.respond
      { s with
        cv := [], width := BitVec.ofNat 16 w, height := BitVec.ofNat 16 h, alphaSet := false, alphaThr := 0x00 }
      .ok []) := by
  rw [exec_cvNew, execCvNew, if_neg (Nat.not_lt.mpr hw), if_neg (Nat.not_lt.mpr hh), orRaise_none, finish]

/-! ### Response values -/

/-- A 16-bit response value, as its high byte and its low byte (30_encoding.md R76). -/
theorem be16_ofNat (n : Nat) : be16 (BitVec.ofNat 16 n) = [BitVec.ofNat 8 (n / 256), BitVec.ofNat 8 n] := by
  have high : (BitVec.ofNat 16 n).extractLsb' 8 8 = BitVec.ofNat 8 (n / 256) := by
    apply BitVec.eq_of_toNat_eq
    simp only [BitVec.extractLsb'_toNat, BitVec.toNat_ofNat, Nat.shiftRight_eq_div_pow]
    omega
  have low : (BitVec.ofNat 16 n).extractLsb' 0 8 = BitVec.ofNat 8 n := by
    apply BitVec.eq_of_toNat_eq
    simp only [BitVec.extractLsb'_toNat, BitVec.toNat_ofNat, Nat.shiftRight_zero]
    omega
  rw [be16, high, low]

theorem be16_eq_toNat (v : Half) : be16 v = [BitVec.ofNat 8 (v.toNat / 256), BitVec.ofNat 8 v.toNat] := by
  rw [← be16_ofNat, BitVec.ofNat_toNat, BitVec.setWidth_eq]

theorem flagByte_eq_ite (b : Bool) : flagByte b = if b then 0x01 else 0x00 := by cases b <;> rfl

/-! ### The obligations -/

/-- Settles O21: the two capacity checks, and the emptied store, which reads 0x00 at every address; a legal capacity is below
2^16, so the operands fit their registers. -/
theorem cvNewResult : Obligations.CvNewResult := by
  intro s w h
  refine ⟨exec_cvNew_widthCap h, exec_cvNew_heightCap, ?_⟩
  intro legal hw hh
  obtain ⟨⟨-, -, capW_max⟩, ⟨-, capH_max⟩, -⟩ := legal
  refine ⟨_, exec_cvNew_of_fits hw hh, fun _ _ => rfl, ?_, ?_, rfl⟩
  · exact Nat.mod_eq_of_lt (by omega)
  · exact Nat.mod_eq_of_lt (by omega)

/-- Settles O24: the run of byte writes from column 0, read inside and outside. -/
theorem cvRowwResult : Obligations.CvRowwResult := by
  intro s y p q hwf hpay hlen
  refine ⟨?_, fun hy => exec_cvRoww_of_not_liveRow hpay hlen hy⟩
  intro hy
  refine ⟨_, exec_cvRoww_of_liveRow hpay hlen hy, ?_, ?_, ?_⟩
  · intro j hj
    have inside := read_writeBytes_inside (s := { s with payIn := q }) (j := 0) hwf hy.1 le_rfl j hj
    rw [← addr_add _ hy.1 le_rfl, Int.zero_add] at inside
    simpa [State.memRead, State.addr, State.stride] using inside
  · intro a ha
    rw [← hlen] at ha
    exact read_writeBytes_outside (s := { s with payIn := q }) hwf hy.1 le_rfl ha
  · exact congrArg (State.respond · .ok []) (writeBytes_eq { s with payIn := q } y 0 p)

/-- Settles O28: each case of the column check, and the row check; CV.ROWW's payload splits into the bytes taken and the
rest. -/
theorem outOfBoundsRefusals : Obligations.OutOfBoundsRefusals := by
  refine ⟨?_, ?_⟩
  · intro s i x y limit hi
    refine ⟨?_, ?_, ?_, ?_⟩
    · exact fun hx hy => exec_of_checkCol_some hi (checkCol_of_only_column_out hx hy)
    · exact fun hx hy => exec_of_checkCol_some hi (checkCol_of_only_row_out hx hy)
    · exact fun hx hy horder => exec_of_checkCol_some hi (checkCol_of_both_out hx hy horder)
    · exact fun hx hy horder => exec_of_checkCol_some hi (checkCol_of_both_out hx hy horder)
  · intro s y hy
    refine ⟨exec_cvRow_of_not_liveRow hy, ?_⟩
    intro ready
    exact exec_cvRoww_of_not_liveRow (List.take_append_drop s.rowLen s.payIn).symm (List.length_take_of_le ready) hy

/-- Settles O30: dropped outside, the comparison with a known threshold, the free bit (93_implementation_defined.md I3) with
none. -/
theorem cvDrawResult : Obligations.CvDrawResult := by
  intro s x y alpha
  refine ⟨exec_cvDraw_outside alpha, ?_⟩
  intro hwf hx hy
  refine ⟨?_, ?_⟩
  · intro thr hthr
    exact ⟨_, exec_cvDraw_of_threshold alpha hx hy (threshold_eq_some hthr), pixelWritten_writePixel x y _ hwf, rfl⟩
  · intro hset hunset
    exact ⟨_, _, exec_cvDraw_of_no_threshold alpha hx hy (threshold_eq_none hset hunset),
      pixelWritten_writePixel x y _ hwf, rfl⟩

/-- Settles O31: the bit written is the bit of the byte, which both reads answer. -/
theorem pixelWriteReadsBack : Obligations.PixelWriteReadsBack := by
  intro s x y v hwf hx hy
  obtain ⟨written, -, -⟩ := pixelWritten_writePixel x y v hwf
  have read_back : (s.writePixel x y v).readPixel x y = if v then 0x01 else 0x00 := by
    rw [readPixel_eq_getLsbD, written]
  refine ⟨_, _, _, _, exec_cvBitw_of_live v hx hy, exec_cvBit_of_live hx hy, ?_,
    exec_cvByte_of_live (liveByte_of_livePixel hx) hy, rfl, written⟩
  rw [← read_back]
  rfl

/-- Settles O22: each answers its register as a 16-bit value. -/
theorem geometryReads : Obligations.GeometryReads := by
  intro s
  rw [exec_cvWidth, exec_cvHeight, exec_cvCapw, exec_cvCaph, be16_eq_toNat, be16_eq_toNat, be16_ofNat, be16_ofNat]
  exact ⟨rfl, rfl, rfl, rfl⟩

/-- Settles O23: the row check, and the row's bytes in increasing column. -/
theorem cvRowResult : Obligations.CvRowResult := by
  intro s y
  rw [← readRow_eq_map_range]
  exact ⟨exec_cvRow_of_liveRow, exec_cvRow_of_not_liveRow⟩

/-- Settles O29: the two arms of CV.ALPHAW, and the presence byte. -/
theorem alphaThresholdReadAndWrite : Obligations.AlphaThresholdReadAndWrite := by
  intro s thr
  rw [exec_cvAlphaw, exec_cvAlphaw, exec_cvAlpha, flagByte_eq_ite]
  exact ⟨rfl, rfl, rfl⟩

end Sys2Proof.Canvas

/-! The view commands and the row-byte protocol (41_views.md R130 to R158): bit reversal, the byte-and-bit decomposition,
reads through chains as their pointwise bytes, the laws of the stages, and the slot file. -/

namespace Sys2Proof.Views

open Sys2Proof.Machine

/-! ### Bit reversal (R131) -/

/-- Masks of a swap step over distance `n`: `hi` keeps the upper and `lo` the lower bit of each pair `k`, `k ^^^ n`. -/
def SwapMasks (hi lo : Byte) (n : Nat) : Prop :=
  ∀ k < 8,
    (k ^^^ n = n + k ∧ hi.getLsbD (n + k) = true ∧ (k < n ∨ lo.getLsbD (k - n) = false)) ∨
    (k ^^^ n = k - n ∧ hi.getLsbD (n + k) = false ∧ n ≤ k ∧ lo.getLsbD (k - n) = true)

/-- A swap step exchanges the two bits of each pair. -/
theorem getLsbD_swap {hi lo : Byte} {n k : Nat} (masks : SwapMasks hi lo n) (v : Byte) (hk : k < 8) :
    (((v &&& hi) >>> n) ||| ((v &&& lo) <<< n)).getLsbD k = v.getLsbD (k ^^^ n) := by
  rw [BitVec.getLsbD_or, BitVec.getLsbD_ushiftRight, BitVec.getLsbD_shiftLeft, BitVec.getLsbD_and, BitVec.getLsbD_and]
  obtain ⟨partner, hhi, hlo | hlo⟩ | ⟨partner, hhi, hn, hlo⟩ := masks k hk
  · simp [partner, hhi, hlo]
  · simp [partner, hhi, hlo]
  · simp [partner, hhi, hlo, hk, hn]

theorem swapMasks_four : SwapMasks 0xF0#8 0x0F#8 4 := by unfold SwapMasks; decide
theorem swapMasks_two : SwapMasks 0xCC#8 0x33#8 2 := by unfold SwapMasks; decide
theorem swapMasks_one : SwapMasks 0xAA#8 0x55#8 1 := by unfold SwapMasks; decide

/-- The pairs of the three swap steps, one after the other, lead from bit `k` to bit `7 - k`. -/
theorem swap_pairs : ∀ k < 8, k ^^^ 1 < 8 ∧ k ^^^ 1 ^^^ 2 < 8 ∧ k ^^^ 1 ^^^ 2 ^^^ 4 = 7 - k := by decide

theorem getLsbD_bitrev8 (v : Byte) {k : Nat} (hk : k < 8) : (bitrev8 v).getLsbD k = v.getLsbD (7 - k) := by
  obtain ⟨first, second, third⟩ := swap_pairs k hk
  rw [bitrev8, getLsbD_swap swapMasks_one _ hk, getLsbD_swap swapMasks_two _ first,
    getLsbD_swap swapMasks_four _ second, third]

@[simp] theorem bitrev8_bitrev8 (v : Byte) : bitrev8 (bitrev8 v) = v := by
  apply BitVec.eq_of_getLsbD_eq
  intro k hk
  rw [getLsbD_bitrev8 _ hk, getLsbD_bitrev8 _ (by omega), show 7 - (7 - k) = k by omega]

/-! ### The byte-and-bit decomposition (R144, R152) -/

theorem byteAndBit_eq (b : Int) : byteAndBit b = (b / 8, b % 8) := by
  unfold byteAndBit
  by_cases hb : 0 ≤ b
  · rw [if_pos hb, Int.tdiv_eq_ediv_of_nonneg hb]
  · have truncated : Int.tdiv b 8 = -(-b / 8) := by
      rw [← Int.tdiv_eq_ediv_of_nonneg (by omega), Int.neg_tdiv, neg_neg]
    rw [if_neg hb, truncated]
    split <;> simp only [Prod.mk.injEq] <;> omega

/-- A 16-bit value in two's complement, as its high byte and its low byte (30_encoding.md R76). -/
theorem be16_ofInt (x : Int) : be16 (BitVec.ofInt 16 x) = [BitVec.ofInt 8 (x / 256), BitVec.ofInt 8 x] := by
  have high : BitVec.ofNat 8 ((BitVec.ofInt 16 x).toNat / 256) = BitVec.ofInt 8 (x / 256) := by
    apply BitVec.eq_of_toNat_eq
    simp only [BitVec.toNat_ofNat, BitVec.toNat_ofInt]
    omega
  have low : BitVec.ofNat 8 (BitVec.ofInt 16 x).toNat = BitVec.ofInt 8 x := by
    apply BitVec.eq_of_toNat_eq
    simp only [BitVec.toNat_ofNat, BitVec.toNat_ofInt]
    omega
  rw [Canvas.be16_eq_toNat, high, low]

theorem exec_bitidx (b : Int) (s : State) :
    exec (.bitidx b) s =
      finish (be16 (BitVec.ofInt 16 (byteAndBit b).1) ++ [BitVec.ofInt 8 (byteAndBit b).2]) s := rfl

/-! ### Ranges of columns (00_scope.md R9) -/

theorem intRange_sub (a b d : Int) : intRange (a - d) (b - d) = (intRange a b).map (fun j => j - d) := by
  simp only [intRange, List.map_map, Function.comp_def, sub_sub_sub_cancel_right]
  exact List.map_congr_left (fun k _ => by omega)

/-- FLIP's mirror, `j` to `-1 - j`, takes `a .. b-1` to `-b .. -a-1` in decreasing order (R137). -/
theorem intRange_neg_reverse (a b : Int) : (intRange (-b) (-a)).reverse = (intRange a b).map (fun j => -1 - j) := by
  apply List.ext_getElem
  · rw [List.length_reverse, List.length_map, intRange_length, intRange_length]
    omega
  · intro k hleft hright
    simp only [List.length_map, intRange_length] at hright
    simp only [intRange, List.getElem_reverse, List.getElem_map, List.getElem_range, List.length_map, List.length_range]
    omega

/-! ### The pixel ROT90 picks from a source byte (R140) -/

theorem rotMask_eq_pixelMask (r : Int) : rotMask r = pixelMask r := by rw [rotMask, byteAndBit_eq, pixelMask]

theorem pixelMask_eq_twoPow (x : Int) : pixelMask x = BitVec.twoPow 8 (7 - (x % 8).toNat) := by
  apply BitVec.eq_of_getLsbD_eq
  intro k hk
  have in_byte : 7 - (x % 8).toNat < 8 := by omega
  rw [Canvas.getLsbD_pixelMask x hk, BitVec.getLsbD_twoPow]
  simp only [in_byte, decide_true, Bool.true_and, eq_comm]

theorem twoPow_ne_zero : ∀ k < 8, BitVec.twoPow 8 k ≠ 0#8 := by decide

theorem and_pixelMask_ne_zero (v : Byte) (x : Int) :
    decide (v &&& pixelMask x ≠ 0) = v.getLsbD (7 - (x % 8).toNat) := by
  rw [pixelMask_eq_twoPow, BitVec.and_twoPow]
  cases v.getLsbD (7 - (x % 8).toNat) with
  | false => rfl
  | true => exact decide_eq_true (twoPow_ne_zero _ (by omega))

/-- Bit `k` of a ROT90 byte is one pixel of row `8 j + k` of the inner chain (R153). -/
theorem getLsbD_point_rot90 (s : State) (c : List Stage) (r j : Int) {k : Nat} (hk : k < 8) :
    (point s (c ++ [.rot90]) r j).getLsbD k =
      (point s c (8 * j + (k : Int)) (r / 8)).getLsbD (7 - (r % 8).toNat) := by
  rw [point_rot90, rotPack_getLsbD _ _ k hk, rotMask_eq_pixelMask, and_pixelMask_ne_zero, byteAndBit_eq]

/-! ### Reads are pointwise (R153), stage by stage -/

theorem fwd_rot90 (s : State) (c : List Stage) (r a b : Int) :
    fwd s (c ++ [.rot90]) r a b = (intRange a b).map (fun j =>
      rotPack (fun (i : Nat) =>
        (fwd s c (8 * j + (i : Int)) (byteAndBit r).1 ((byteAndBit r).1 + 1)).headD 0x00) (rotMask r)) := by
  simp [fwd, readOuter]

/-- A chain's forward reads, where supported, are its pointwise bytes. -/
def FwdPointwise (s : State) (c : List Stage) : Prop :=
  supported c .fwd = true → ∀ r a b : Int, fwd s c r a b = (intRange a b).map (point s c r)

/-- A chain's reverse reads, where supported, are its pointwise bytes reversed, from the last down to the first. -/
def RevPointwise (s : State) (c : List Stage) : Prop :=
  supported c .rev = true → ∀ r a b : Int,
    rev s c r a b = (intRange a b).reverse.map (fun j => bitrev8 (point s c r j))

theorem fwdPointwise_flip {s : State} {c : List Stage} (inner : RevPointwise s c) :
    FwdPointwise s (c ++ [.flip]) := by
  intro sup r a b
  rw [supported_flip] at sup
  rw [fwd_flip, inner sup, intRange_neg_reverse, List.map_map]
  exact List.map_congr_left (fun j _ => (point_flip s c r j).symm)

theorem revPointwise_flip {s : State} {c : List Stage} (inner : FwdPointwise s c) :
    RevPointwise s (c ++ [.flip]) := by
  intro sup r a b
  have mirrored : intRange (-b) (-a) = (intRange a b).reverse.map (fun j => -1 - j) := by
    rw [List.map_reverse, ← intRange_neg_reverse, List.reverse_reverse]
  rw [supported_flip] at sup
  rw [rev_flip, inner sup, mirrored, List.map_map]
  exact List.map_congr_left (fun j _ => by rw [point_flip, bitrev8_bitrev8]; rfl)

theorem fwdPointwise_offset {s : State} {c : List Stage} (dx dy : Int) (inner : FwdPointwise s c) :
    FwdPointwise s (c ++ [.offset dx dy]) := by
  intro sup r a b
  rw [supported_offset] at sup
  rw [fwd_offset, inner sup, intRange_sub, List.map_map]
  exact List.map_congr_left (fun j _ => (point_offset s c dx dy r j).symm)

theorem revPointwise_offset {s : State} {c : List Stage} (dx dy : Int) (inner : RevPointwise s c) :
    RevPointwise s (c ++ [.offset dx dy]) := by
  intro sup r a b
  rw [supported_offset] at sup
  rw [rev_offset, inner sup, intRange_sub, ← List.map_reverse, List.map_map]
  exact List.map_congr_left (fun j _ => by rw [point_offset]; rfl)

theorem fwdPointwise_rot90 {s : State} {c : List Stage} (inner : FwdPointwise s c) :
    FwdPointwise s (c ++ [.rot90]) := by
  intro sup r a b
  have inner_sup : supported c .fwd = true := by simpa using sup
  rw [fwd_rot90]
  refine List.map_congr_left (fun j _ => ?_)
  simp only [point_rot90, inner inner_sup, intRange_one, List.map_cons, List.headD_cons]

/-- ROT90 supports no reverse read. -/
theorem revPointwise_rot90 (s : State) (c : List Stage) : RevPointwise s (c ++ [.rot90]) := by
  intro sup
  simp at sup

/-- Both directions at once, since FLIP exchanges them. -/
theorem reads_pointwise (s : State) (c : List Stage) : FwdPointwise s c ∧ RevPointwise s c := by
  induction c using List.reverseRecOn with
  | nil => exact ⟨fun _ _ _ _ => rfl, fun _ _ _ _ => rfl⟩
  | append_singleton c g ih =>
    obtain ⟨ihFwd, ihRev⟩ := ih
    cases g with
    | flip => exact ⟨fwdPointwise_flip ihRev, revPointwise_flip ihFwd⟩
    | offset dx dy => exact ⟨fwdPointwise_offset dx dy ihFwd, revPointwise_offset dx dy ihRev⟩
    | rot90 => exact ⟨fwdPointwise_rot90 ihFwd, revPointwise_rot90 s c⟩

theorem fwd_eq_point {s : State} {c : List Stage} (sup : supported c .fwd = true) (r a b : Int) :
    fwd s c r a b = (intRange a b).map (point s c r) := (reads_pointwise s c).1 sup r a b

theorem rev_eq_point {s : State} {c : List Stage} (sup : supported c .rev = true) (r a b : Int) :
    rev s c r a b = (intRange a b).reverse.map (fun j => bitrev8 (point s c r j)) :=
  (reads_pointwise s c).2 sup r a b

/-! ### Rotation of an 8x8 block (R158) -/

/-- Two ROT90 stages turn byte column 0 of rows 0 to 7 by 180 degrees, over every inner chain. -/
theorem point_rot90_rot90 (s : State) (c : List Stage) {y : Int} (hy : 0 ≤ y) (hy' : y ≤ 7) :
    point s (c ++ [.rot90] ++ [.rot90]) y 0 = bitrev8 (point s c (7 - y) 0) := by
  apply BitVec.eq_of_getLsbD_eq
  intro k hk
  rw [getLsbD_point_rot90 _ _ _ _ hk, show y / 8 = 0 by omega, getLsbD_point_rot90 _ _ _ _ (by omega),
    getLsbD_bitrev8 _ hk, show (8 * 0 + (k : Int)) / 8 = 0 by omega,
    show 8 * 0 + ((7 - (y % 8).toNat : Nat) : Int) = 7 - y by omega,
    show ((8 * 0 + (k : Int)) % 8).toNat = k by omega]

/-! ### The slot file (10_state.md R30) -/

theorem chain_setChain_same {s : State} {slot : Nat} (c : List Stage) (h : slot < s.slots.length) :
    (s.setChain slot c).chain slot = c := by
  simp [State.chain, h]

theorem chain_setChain_other {s : State} {slot k : Nat} (c : List Stage) (h : k ≠ slot) :
    (s.setChain slot c).chain k = s.chain k := by
  simp [State.chain, h.symm]

theorem withSlot_of_lt {slot : Nat} {s : State} (k : Exec) (h : slot < s.par.viewSlots) : withSlot slot s k = k :=
  if_pos h

theorem appendStage_of_room {slot : Nat} {s : State} (g : Stage) (h : (s.chain slot).length < s.par.viewDepth) :
    appendStage slot g s = .next ((s.setChain slot (s.chain slot ++ [g])).respond .ok []) := by
  rw [appendStage, if_pos h, orRaise_none, finish]

theorem appendStage_of_full {slot : Nat} {s : State} (g : Stage) (h : s.par.viewDepth ≤ (s.chain slot).length) :
    appendStage slot g s = .next (s.respond .depthFull []) := by
  rw [appendStage, if_neg (Nat.not_lt.mpr h), orRaise_some, raise]

theorem exec_vwClear (slot : Nat) (s : State) :
    exec (.vwClear slot) s = withSlot slot s (finish [] (s.setChain slot [])) := rfl
theorem exec_vwBitslen (slot : Nat) (s : State) :
    exec (.vwBitslen slot) s = withSlot slot s (finish (be16 s.width) s) := rfl

/-- The three appending commands are the ones R78 names for the three stages. -/
theorem exec_stageCommand (slot : Nat) (g : Stage) (s : State) :
    exec (stageCommand slot g) s = withSlot slot s (appendStage slot g s) := by
  cases g <;> rfl

/-! ### The obligations -/

/-- Settles O39: the case rule is floor division, and the 16-bit byte is split in two. -/
theorem bitidxResult : Obligations.BitidxResult := by
  intro s b
  rw [exec_bitidx, byteAndBit_eq, be16_ofInt, finish]
  have bit_low : 0 ≤ b % 8 := by omega
  have bit_high : b % 8 ≤ 7 := by omega
  exact ⟨rfl, Int.ediv_mul_add_emod b 8, bit_low, bit_high, rfl⟩

/-- Settles O42: the equations of the pointwise form, and the induction over the chain from its last stage. -/
theorem readsAgreeWithThePointwiseForm : Obligations.ReadsAgreeWithThePointwiseForm := by
  intro s c
  refine ⟨?_, fun row a b sup => fwd_eq_point sup row a b, fun row a b sup => rev_eq_point sup row a b⟩
  intro r j
  exact ⟨point_nil s r j, point_flip s c r j, fun dx dy => point_offset s c dx dy r j,
    fun _ hk => getLsbD_point_rot90 s c r j hk⟩

/-- Settles O43: a supported read has one byte for each column of its range. -/
theorem readsHaveTheirRangesLength : Obligations.ReadsHaveTheirRangesLength := by
  intro s c row a b
  refine ⟨?_, ?_⟩
  · intro sup
    rw [fwd_eq_point sup, List.length_map, intRange_length]
    omega
  · intro sup
    rw [rev_eq_point sup, List.length_map, List.length_reverse, intRange_length]
    omega

/-- Settles O45: each law composes the equations of its two stages. -/
theorem viewLawsOfFlipAndOffset : Obligations.ViewLawsOfFlipAndOffset := by
  intro s c
  refine ⟨?_, ?_, ?_⟩
  · intro y a b _
    rw [List.append_cons, fwd_flip, rev_flip, neg_neg, neg_neg]
  · intro a1 b1 a2 b2 r j
    rw [List.append_cons, point_offset, point_offset, point_offset]
    congr 1 <;> omega
  · intro k r j
    have flip_first : point s (c ++ [.flip, .offset k 0]) r j = bitrev8 (point s c r (k - 1 - j)) := by
      rw [List.append_cons, point_offset, point_flip, Int.sub_zero, show -1 - (j - k) = k - 1 - j by omega]
    have offset_first : point s (c ++ [.offset (-k) 0, .flip]) r j = bitrev8 (point s c r (k - 1 - j)) := by
      rw [List.append_cons, point_flip, point_offset, Int.sub_zero, show -1 - j - -k = k - 1 - j by omega]
    exact ⟨flip_first.trans offset_first.symm, flip_first⟩

/-- Settles O46: two rotations reverse rows and bits, so two more restore them. The geometry only says that this block is
the whole canvas: the pointwise form reads rows 0 to 7 of byte column 0 whatever is live. -/
theorem fourRotationsAreTheIdentity : Obligations.FourRotationsAreTheIdentity := by
  intro s y _ _ hy hy'
  refine ⟨?_, point_rot90_rot90 s [] hy hy', rfl⟩
  calc point s [.rot90, .rot90, .rot90, .rot90] y 0
    _ = bitrev8 (point s [.rot90, .rot90] (7 - y) 0) := point_rot90_rot90 s [.rot90, .rot90] hy hy'
    _ = bitrev8 (bitrev8 (s.canvasByte (7 - (7 - y)) 0)) :=
      congrArg bitrev8 (point_rot90_rot90 s [] (by omega) (by omega))
    _ = s.canvasByte y 0 := by rw [bitrev8_bitrev8, sub_sub_cancel]

/-- Settles O34: the slot's chain is replaced by the empty one. -/
theorem vwClearResult : Obligations.VwClearResult := by
  intro s slot hlen hslot
  rw [exec_vwClear, withSlot_of_lt _ hslot]
  exact ⟨_, rfl, chain_setChain_same [] (hlen ▸ hslot), fun _ hk => chain_setChain_other [] hk, List.length_set, rfl⟩

/-- Settles O35: each of the three commands appends its stage while there is room. -/
theorem vwAppendResult : Obligations.VwAppendResult := by
  intro s slot g i hi hlen hslot
  have command : i = stageCommand slot g := by
    obtain ⟨rfl, rfl⟩ | ⟨dx, dy, rfl, rfl⟩ | ⟨rfl, rfl⟩ := hi <;> rfl
  rw [command, exec_stageCommand, withSlot_of_lt _ hslot]
  refine ⟨?_, fun full => appendStage_of_full g full.ge⟩
  intro room
  exact ⟨_, appendStage_of_room g room, chain_setChain_same _ (hlen ▸ hslot), fun _ hk => chain_setChain_other _ hk,
    List.length_set, rfl⟩

/-- Settles O36: the answer is WIDTH as a 16-bit value. -/
theorem vwBitslenResult : Obligations.VwBitslenResult := by
  intro s slot hslot
  rw [exec_vwBitslen, withSlot_of_lt _ hslot, Canvas.be16_eq_toNat, finish]

/-- Settles O41: the three swap steps send bit `k` to bit `7 - k`. -/
theorem bitReversal : Obligations.BitReversal :=
  ⟨fun v _ hk => getLsbD_bitrev8 v hk, bitrev8_bitrev8, rfl⟩

end Sys2Proof.Views

/-! The driver commands (42_driver.md R160 to R171): the frame each sends, the answers that end it, what it caches, and that
none makes more than one bus write. -/

namespace Sys2Proof.Drivers

open Sys2Proof.Machine

/-! ### The arm of each command -/

theorem exec_drvPwm (u : Nat) (v : Byte) (s : State) :
    exec (.drvPwm u v) s = withDev u s (fun d => drvWrite d (framePwm v) id s) := rfl
theorem exec_drvM1rows (u r count : Nat) (s : State) :
    exec (.drvM1rows u r count) s = windowWrite regMatrix1 u r count s := rfl
theorem exec_drvM2rows (u r count : Nat) (s : State) :
    exec (.drvM2rows u r count) s = windowWrite regMatrix2 u r count s := rfl
theorem exec_drvUpdate (u : Nat) (s : State) :
    exec (.drvUpdate u) s = withDev u s (fun d => drvWrite d frameUpdate id s) := rfl
theorem exec_drvReset (u : Nat) (s : State) :
    exec (.drvReset u) s = withDev u s (fun d => drvWrite d frameReset id s) := rfl
theorem exec_drvModcfg (u : Nat) (mask value : Byte) (s : State) :
    exec (.drvModcfg u mask value) s = withDev u s (fun d =>
      drvWrite d (frameConfig (masked (pick s.drv d).cfg mask value))
        (fun t => t.setCfg d (masked (pick s.drv d).cfg mask value)) s) := rfl
theorem exec_drvModlit (u : Nat) (mask value : Byte) (s : State) :
    exec (.drvModlit u mask value) s = withDev u s (fun d =>
      drvWrite d (frameLighting (masked (pick s.drv d).lit mask value))
        (fun t => t.setLit d (masked (pick s.drv d).lit mask value)) s) := rfl
theorem exec_drvCfg (u : Nat) (s : State) :
    exec (.drvCfg u) s = withDev u s (fun d => finish [(pick s.drv d).cfg] s) := rfl
theorem exec_drvLit (u : Nat) (s : State) :
    exec (.drvLit u) s = withDev u s (fun d => finish [(pick s.drv d).lit] s) := rfl

/-! ### One bus write and its answer (R160) -/

theorem sameRegisters_busWrite (s : State) (d : Dev) (frame : List Byte) : s.sameRegisters (s.busWrite d frame) :=
  ⟨rfl, rfl, rfl, rfl, rfl, rfl, rfl, rfl, rfl⟩

theorem busStall_ne_of_answeredFor {s : State} (answered : s.answeredFor 1) (k : Nat) (hk : s.busStall = some k) :
    k ≠ s.busOut.length := by
  have := answered k hk
  omega

theorem drvWrite_of_ok {s : State} (d : Dev) (frame : List Byte) (onOk : State → State) (answered : s.answeredFor 1)
    (keeps : ∀ t, (onOk t).busOut = t.busOut) (ok : s.nextAnswer = .ok) :
    drvWrite d frame onOk s = .next ((onOk (s.busWrite d frame)).respond .ok []) := by
  rw [drvWrite_answered d frame onOk s (busStall_ne_of_answeredFor answered) keeps, ok]

theorem drvWrite_of_err {s : State} {e : Byte} (d : Dev) (frame : List Byte) (onOk : State → State)
    (answered : s.answeredFor 1) (keeps : ∀ t, (onOk t).busOut = t.busOut) (err : s.nextAnswer = .err e) :
    drvWrite d frame onOk s = .next ((s.busWrite d frame).respond .transport [e]) := by
  rw [drvWrite_answered d frame onOk s (busStall_ne_of_answeredFor answered) keeps, err]

/-! ### At most one bus write (R171) -/

/-- What a driver command started in `s` can answer: no write, one write answered `ok`, or one write answered `err`, which
leaves every register as it was. -/
inductive WroteAtMostOnce (s t : State) : Prop
  | silent (r : Response) (response : t.response = some r) (status : r.status ≠ .transport)
      (bus : t.busOut = s.busOut)
  | sent (w : BusWrite) (response : t.response = some { status := .ok, data := [] }) (bus : t.busOut = s.busOut ++ [w])
  | failed (w : BusWrite) (e : Byte) (response : t.response = some { status := .transport, data := [e] })
      (bus : t.busOut = s.busOut ++ [w]) (registers : s.sameRegisters t)

theorem wroteAtMostOnce_respond (s : State) {st : Status} (data : List Byte) (hst : st ≠ .transport) :
    WroteAtMostOnce s (s.respond st data) := .silent _ rfl hst rfl

theorem wroteAtMostOnce_of_finish {s t : State} {data : List Byte} (h : finish data s = .next t) :
    WroteAtMostOnce s t := by
  rw [(finish_next _ _ _).mp h]
  exact wroteAtMostOnce_respond s data (by decide)

theorem wroteAtMostOnce_of_drvWrite {s t : State} {d : Dev} {frame : List Byte} {onOk : State → State}
    (keeps : ∀ t, (onOk t).busOut = t.busOut) (h : drvWrite d frame onOk s = .next t) : WroteAtMostOnce s t := by
  obtain ⟨-, rfl⟩ | ⟨e, -, rfl⟩ := drvWrite_next d frame onOk s t h
  · exact .sent _ rfl (keeps _)
  · exact .failed _ e rfl rfl (sameRegisters_busWrite s d frame)

theorem wroteAtMostOnce_of_withDev {s t : State} {u : Nat} {k : Dev → Exec} (h : withDev u s k = .next t)
    (rest : ∀ d, k d = .next t → WroteAtMostOnce s t) : WroteAtMostOnce s t := by
  obtain ⟨d, -, hk⟩ | ⟨-, rfl⟩ := withDev_next u s t k h
  · exact rest d hk
  · exact wroteAtMostOnce_respond s [] (by decide)

/-- The payload stream is no register, so bytes consumed before a command's checks make no difference. -/
theorem WroteAtMostOnce.of_payIn {s t : State} {q : List Byte} (h : WroteAtMostOnce { s with payIn := q } t) :
    WroteAtMostOnce s t := by
  cases h with
  | silent r response status bus => exact .silent r response status bus
  | sent w response bus => exact .sent w response bus
  | failed w e response bus registers => exact .failed w e response bus registers

theorem wroteAtMostOnce_of_windowWrite {s t : State} {base : Byte} {u r count : Nat}
    (h : windowWrite base u r count s = .next t) : WroteAtMostOnce s t := by
  obtain ⟨-, taken⟩ := withPayload_next _ _ _ _ h
  refine .of_payIn (wroteAtMostOnce_of_withDev taken fun d checked => ?_)
  obtain ⟨st, refused, rfl⟩ | ⟨-, write⟩ := orRaise_next _ _ _ _ checked
  · obtain ⟨-, ⟨⟩⟩ := Option.ite_none_right_eq_some.mp refused
    exact wroteAtMostOnce_respond _ [] (by decide)
  · exact wroteAtMostOnce_of_drvWrite (fun _ => rfl) write

theorem wroteAtMostOnce_of_exec {i : Instr} {s t : State} (driver : isDriver i = true) (h : exec i s = .next t) :
    WroteAtMostOnce s t := by
  cases i
  case drvPwm => exact wroteAtMostOnce_of_withDev h fun _ => wroteAtMostOnce_of_drvWrite fun _ => rfl
  case drvM1rows => exact wroteAtMostOnce_of_windowWrite h
  case drvM2rows => exact wroteAtMostOnce_of_windowWrite h
  case drvUpdate => exact wroteAtMostOnce_of_withDev h fun _ => wroteAtMostOnce_of_drvWrite fun _ => rfl
  case drvReset => exact wroteAtMostOnce_of_withDev h fun _ => wroteAtMostOnce_of_drvWrite fun _ => rfl
  case drvModcfg => exact wroteAtMostOnce_of_withDev h fun _ => wroteAtMostOnce_of_drvWrite fun _ => rfl
  case drvModlit => exact wroteAtMostOnce_of_withDev h fun _ => wroteAtMostOnce_of_drvWrite fun _ => rfl
  case drvCfg => exact wroteAtMostOnce_of_withDev h fun _ => wroteAtMostOnce_of_finish
  case drvLit => exact wroteAtMostOnce_of_withDev h fun _ => wroteAtMostOnce_of_finish
  all_goals cases driver

/-! ### Single registers (R161, R164, R165) -/

/-- The PWM byte keeps the low seven bits of the value and sets bit 7 (30_encoding.md R89). -/
theorem pwmByte_eq_ofNat (v : Byte) : pwmByte v = BitVec.ofNat 8 (128 + v.toNat % 128) := by
  apply BitVec.eq_of_toNat_eq
  have low : v.toNat &&& 127 = v.toNat % 128 := Nat.and_two_pow_sub_one_eq_mod v.toNat 7
  have high : 128 + v.toNat % 128 = 128 ||| v.toNat % 128 :=
    Nat.two_pow_add_eq_or_of_lt (i := 7) (Nat.mod_lt _ (by decide)) 1
  have byte : (128 + v.toNat % 128) % 256 = 128 + v.toNat % 128 := Nat.mod_eq_of_lt (by omega)
  simp only [pwmByte, BitVec.toNat_or, BitVec.toNat_and, BitVec.toNat_ofNat]
  rw [byte, high, ← low]
  exact Nat.or_comm _ _

theorem framePwm_eq (v : Byte) : framePwm v = [0x19, BitVec.ofNat 8 (128 + v.toNat % 128)] := by
  rw [framePwm, pwmByte_eq_ofNat, regPwm]

/-! ### Matrix windows (R162, R163) -/

/-- A window write takes exactly its bytes from the front of the payload stream, before any check. -/
theorem windowWrite_payload {s : State} {u : Nat} {d : Dev} {p q : List Byte} (base : Byte) (r : Nat)
    (unit : devOf u = some d) (hpay : s.payIn = p ++ q) :
    windowWrite base u r p.length s =
      orRaise (if 10 < r ∨ 11 < r + p.length then some .payloadRange else none) { s with payIn := q }
        (drvWrite d (frameWindow base r p) id { s with payIn := q }) := by
  have ready : p.length ≤ s.payIn.length := by rw [hpay, List.length_append]; omega
  rw [windowWrite, withPayload_ready _ _ _ ready, withDev_some _ _ _ _ unit, hpay, List.take_left, List.drop_left]
  rfl

theorem windowWrite_of_fits {s : State} {u r : Nat} {d : Dev} {p q : List Byte} (base : Byte)
    (unit : devOf u = some d) (hpay : s.payIn = p ++ q) (hr : r ≤ 10) (fits : r + p.length ≤ 11) :
    windowWrite base u r p.length s = drvWrite d (frameWindow base r p) id { s with payIn := q } := by
  rw [windowWrite_payload base r unit hpay, if_neg (by omega), orRaise_none]

theorem windowWrite_of_overrun {s : State} {u r : Nat} {d : Dev} {p q : List Byte} (base : Byte)
    (unit : devOf u = some d) (hpay : s.payIn = p ++ q) (overrun : 10 < r ∨ 11 < r + p.length) :
    windowWrite base u r p.length s = .next (State.respond { s with payIn := q } .payloadRange []) := by
  rw [windowWrite_payload base r unit hpay, if_pos overrun, orRaise_some, raise]

theorem frameWindow_ofNat (base r : Nat) (p : List Byte) :
    frameWindow (BitVec.ofNat 8 base) r p = BitVec.ofNat 8 (base + r) :: p := by
  rw [frameWindow, BitVec.ofNat_add]

/-! ### The cached bytes (R166, R167, R170) -/

theorem exec_drvModcfg_of_ok {s : State} {u : Nat} {d : Dev} (mask value : Byte) (unit : devOf u = some d)
    (answered : s.answeredFor 1) (ok : s.nextAnswer = .ok) :
    exec (.drvModcfg u mask value) s =
      .next (((s.busWrite d [0x00, masked (pick s.drv d).cfg mask value]).setCfg d
        (masked (pick s.drv d).cfg mask value)).respond .ok []) := by
  rw [exec_drvModcfg, withDev_some _ _ _ _ unit]
  exact drvWrite_of_ok d _ (State.setCfg · d _) answered (setCfg_busOut · d _) ok

theorem exec_drvModcfg_of_err {s : State} {u : Nat} {d : Dev} {e : Byte} (mask value : Byte) (unit : devOf u = some d)
    (answered : s.answeredFor 1) (err : s.nextAnswer = .err e) :
    exec (.drvModcfg u mask value) s =
      .next ((s.busWrite d [0x00, masked (pick s.drv d).cfg mask value]).respond .transport [e]) := by
  rw [exec_drvModcfg, withDev_some _ _ _ _ unit]
  exact drvWrite_of_err d _ (State.setCfg · d _) answered (setCfg_busOut · d _) err

theorem exec_drvModlit_of_ok {s : State} {u : Nat} {d : Dev} (mask value : Byte) (unit : devOf u = some d)
    (answered : s.answeredFor 1) (ok : s.nextAnswer = .ok) :
    exec (.drvModlit u mask value) s =
      .next (((s.busWrite d [0x0D, masked (pick s.drv d).lit mask value]).setLit d
        (masked (pick s.drv d).lit mask value)).respond .ok []) := by
  rw [exec_drvModlit, withDev_some _ _ _ _ unit]
  exact drvWrite_of_ok d _ (State.setLit · d _) answered (setLit_busOut · d _) ok

theorem exec_drvModlit_of_err {s : State} {u : Nat} {d : Dev} {e : Byte} (mask value : Byte) (unit : devOf u = some d)
    (answered : s.answeredFor 1) (err : s.nextAnswer = .err e) :
    exec (.drvModlit u mask value) s =
      .next ((s.busWrite d [0x0D, masked (pick s.drv d).lit mask value]).respond .transport [e]) := by
  rw [exec_drvModlit, withDev_some _ _ _ _ unit]
  exact drvWrite_of_err d _ (State.setLit · d _) answered (setLit_busOut · d _) err

/-- Outside the mask the cached byte stays. -/
theorem masked_and_not_mask (c mask value : Byte) : masked c mask value &&& ~~~mask = c &&& ~~~mask := by
  apply BitVec.eq_of_getLsbD_eq
  intro k hk
  rw [BitVec.getLsbD_and, BitVec.getLsbD_and, BitVec.getLsbD_not, masked_getLsbD _ _ _ _ hk]
  cases mask.getLsbD k <;> simp

/-- A masked byte masked again with the same operands is the same byte. -/
theorem masked_masked (c mask value : Byte) : masked (masked c mask value) mask value = masked c mask value := by
  rw [masked, masked_and_not_mask, ← masked]

/-- The modification command of one of the two cached bytes (`true`: Lighting, as in `setterField`). -/
def modCommand (lighting : Bool) (u : Nat) (mask value : Byte) : Instr :=
  if lighting then .drvModlit u mask value else .drvModcfg u mask value

/-- The cached bytes after that command is answered `ok`. -/
def modified (lighting : Bool) (mask value : Byte) (v : Driver) : Driver :=
  if lighting then { v with lit := masked v.lit mask value } else { v with cfg := masked v.cfg mask value }

theorem modified_modified (lighting : Bool) (mask value : Byte) (v : Driver) :
    modified lighting mask value (modified lighting mask value v) = modified lighting mask value v := by
  cases lighting <;> simp [modified, masked_masked]

theorem modified_outside_field (lighting : Bool) (mask value : Byte) (v : Driver) :
    if lighting then
      (modified lighting mask value v).cfg = v.cfg ∧ (modified lighting mask value v).lit &&& ~~~mask = v.lit &&& ~~~mask
    else
      (modified lighting mask value v).lit = v.lit ∧
        (modified lighting mask value v).cfg &&& ~~~mask = v.cfg &&& ~~~mask := by
  cases lighting
  · exact ⟨rfl, masked_and_not_mask v.cfg mask value⟩
  · exact ⟨rfl, masked_and_not_mask v.lit mask value⟩

/-- One application answered `ok`: the modified bytes are cached, and one frame is sent. -/
theorem exec_modCommand_of_ok {s : State} {u : Nat} {d : Dev} (lighting : Bool) (mask value : Byte)
    (unit : devOf u = some d) (answered : s.answeredFor 1) (ok : s.nextAnswer = .ok) :
    ∃ t, exec (modCommand lighting u mask value) s = .next t ∧
      t.drv = put s.drv d (modified lighting mask value (pick s.drv d)) ∧
      t.busOut.length = s.busOut.length + 1 ∧ t.busIn = s.busIn.tail ∧ t.busStall = s.busStall := by
  cases lighting
  · exact ⟨_, exec_drvModcfg_of_ok mask value unit answered ok, rfl, List.length_append, rfl, rfl⟩
  · exact ⟨_, exec_drvModlit_of_ok mask value unit answered ok, rfl, List.length_append, rfl, rfl⟩

/-- Every field setter of 30_encoding.md R78 is one modification command with its field's mask. -/
theorem expand_of_setterField {ps : Pseudo} {u : Nat} {mask : Byte} {lighting : Bool}
    (h : setterField ps = some (u, mask, lighting)) : ∃ value, ps.expand = [modCommand lighting u mask value] := by
  cases ps <;> cases h <;> exact ⟨_, rfl⟩

/-! ### The obligations -/

/-- Settles O20: each of the three answers of a driver command has the clauses of its status. -/
theorem driverCommandsWriteOnceAndLast : Obligations.DriverCommandsWriteOnceAndLast := by
  intro i s t r driver h hr
  cases wroteAtMostOnce_of_exec driver h with
  | silent r' response status bus =>
    obtain rfl := Option.some.inj (hr.symm.trans response)
    exact ⟨⟨[], by simpa using bus, Nat.zero_le 1⟩, fun transport => absurd transport status, fun _ _ => bus⟩
  | sent w response bus =>
    obtain rfl := Option.some.inj (hr.symm.trans response)
    exact ⟨⟨[w], bus, le_rfl⟩, nofun, fun failed => absurd rfl failed⟩
  | failed w e response bus registers =>
    obtain rfl := Option.some.inj (hr.symm.trans response)
    exact ⟨⟨[w], bus, le_rfl⟩, fun _ => registers, fun _ other => absurd rfl other⟩

/-- Settles O47: each of the three commands is one write of its frame, with nothing to do on `ok`. -/
theorem singleRegisterDriverWrites : Obligations.SingleRegisterDriverWrites := by
  intro s u d i frame unit answered command
  have write : exec i s = drvWrite d frame id s := by
    obtain ⟨v, rfl, rfl⟩ | ⟨rfl, rfl⟩ | ⟨rfl, rfl⟩ := command
    · rw [exec_drvPwm, withDev_some _ _ _ _ unit, framePwm_eq]
    · rw [exec_drvUpdate, withDev_some _ _ _ _ unit, frameUpdate, regUpdate]
    · rw [exec_drvReset, withDev_some _ _ _ _ unit, frameReset, regReset]
  rw [write]
  exact ⟨drvWrite_of_ok d frame id answered fun _ => rfl, fun _ => drvWrite_of_err d frame id answered fun _ => rfl,
    busWrite_busOut s d frame, sameRegisters_busWrite s d frame⟩

/-- Settles O48: both commands are the window write with their base; inside the window it is one bus write. -/
theorem matrixWindowWrites : Obligations.MatrixWindowWrites := by
  intro s u r d p q i base unit hpay command
  have window : exec i s = windowWrite (BitVec.ofNat 8 base) u r p.length s := by
    obtain ⟨rfl, rfl⟩ | ⟨rfl, rfl⟩ := command
    · exact exec_drvM1rows u r p.length s
    · exact exec_drvM2rows u r p.length s
  rw [window]
  refine ⟨?_, windowWrite_of_overrun _ unit hpay⟩
  intro hr fits answered
  have answered' : State.answeredFor { s with payIn := q } 1 := answered
  rw [windowWrite_of_fits _ unit hpay hr fits, frameWindow_ofNat]
  exact ⟨drvWrite_of_ok d _ id answered' fun _ => rfl, fun _ => drvWrite_of_err d _ id answered' fun _ => rfl⟩

/-- Settles O49: the new byte is the masked one, bit by bit. -/
theorem cachedByteModification : Obligations.CachedByteModification := by
  intro s u d mask value unit answered
  exact ⟨⟨masked (pick s.drv d).cfg mask value, masked_getLsbD _ mask value,
      exec_drvModcfg_of_ok mask value unit answered, fun _ => exec_drvModcfg_of_err mask value unit answered⟩,
    ⟨masked (pick s.drv d).lit mask value, masked_getLsbD _ mask value,
      exec_drvModlit_of_ok mask value unit answered, fun _ => exec_drvModlit_of_err mask value unit answered⟩⟩

/-- Settles O51: the setter's command runs twice on the two `ok` answers, and modifying a modified byte changes nothing. -/
theorem fieldSettersPreserveAndRepeat : Obligations.FieldSettersPreserveAndRepeat := by
  intro ps u mask lighting hfield
  obtain ⟨value, expand⟩ := expand_of_setterField hfield
  refine ⟨_, expand, ?_⟩
  intro s d rest unit answered hbus
  have answered_first : s.answeredFor 1 := fun k hk => (answered k hk).imp_right (by omega)
  obtain ⟨t1, run1, drv1, out1, in1, stall1⟩ :=
    exec_modCommand_of_ok lighting mask value unit answered_first (nextAnswer_cons s _ _ hbus)
  have answered_second : t1.answeredFor 1 := by
    intro k hk
    have := answered k (stall1 ▸ hk)
    omega
  have left_over : t1.busIn = .ok :: rest := by rw [in1, hbus, List.tail_cons]
  obtain ⟨t2, run2, drv2, out2, -, -⟩ :=
    exec_modCommand_of_ok lighting mask value unit answered_second (nextAnswer_cons t1 _ _ left_over)
  have repeated : t2.drv = t1.drv := by
    rw [drv2, drv1, pick_put_same, modified_modified, put_put_same]
  refine ⟨t1, t2, run1, run2, repeated, out1, by omega, ?_, ?_⟩
  · intro d' other
    rw [drv1, pick_put_other _ _ _ _ other]
  · rw [drv1, pick_put_same]
    exact modified_outside_field lighting mask value (pick s.drv d)

/-- Settles O50: each answers its byte of the named device's cache. -/
theorem cachedByteReads : Obligations.CachedByteReads := by
  intro s u d unit
  rw [exec_drvCfg, exec_drvLit, withDev_some _ _ _ _ unit, withDev_some _ _ _ _ unit, finish, finish]
  exact ⟨rfl, rfl⟩

end Sys2Proof.Drivers

/-! The matrix target and the Screen sequencer (43_target_screen.md R190 to R196): the frame of TGT.RENDER, what one device's
part of SCR.RENDER writes, caches and flags, and the recovery flags' byte. -/

namespace Sys2Proof.Screen

open Sys2Proof.Machine

/-! ### The arm of each command -/

theorem exec_tgtRender (u slot : Nat) (half : Half8x8) (s : State) :
    exec (.tgtRender u half slot) s = withDev u s (fun d => withSlot slot s
      (orRaise (checkSupported (s.chain slot) .fwd) s
        (drvWrite d (frameWindow (baseOf half) 0 (pull s (s.chain slot))) id s))) := rfl
theorem exec_scrRender (s : State) :
    exec .scrRender s = settle s ((renderDev .d1 (renderDev .d0 s)).respond .ok []) := rfl
theorem exec_scrReinit (s : State) : exec .scrReinit s = finish [reinitByte s.needsReinit] s := rfl

/-! ### The matrix target (R190, R191) -/

theorem pull_eq_point {s : State} {c : List Stage} (sup : supported c .fwd = true) :
    pull s c = (List.range 8).map (fun (row : Nat) => point s c (row : Int) 0) := by
  refine List.map_congr_left (fun row _ => ?_)
  have one_byte : intRange 0 1 = [0] := intRange_one 0
  rw [Views.fwd_eq_point sup, one_byte, List.map_singleton, List.headD_cons]

/-- A frame from register offset 0 of a window starts with the window's base. -/
theorem frameWindow_zero (base : Byte) (p : List Byte) : frameWindow base 0 p = base :: p := by
  rw [frameWindow]
  exact congrArg (· :: p) (BitVec.add_zero base)

theorem exec_tgtRender_of_supported {s : State} {u slot : Nat} {d : Dev} (half : Half8x8) (unit : devOf u = some d)
    (named : slot < s.par.viewSlots) (sup : supported (s.chain slot) .fwd = true) :
    exec (.tgtRender u half slot) s = drvWrite d
      (baseOf half :: (List.range 8).map (fun (row : Nat) => point s (s.chain slot) (row : Int) 0)) id s := by
  rw [exec_tgtRender, withDev_some _ _ _ _ unit, Views.withSlot_of_lt _ named, checkSupported, if_pos sup, orRaise_none,
    frameWindow_zero, pull_eq_point sup]

theorem exec_tgtRender_of_not_supported {s : State} {u slot : Nat} {d : Dev} (half : Half8x8) (unit : devOf u = some d)
    (named : slot < s.par.viewSlots) (sup : supported (s.chain slot) .fwd = false) :
    exec (.tgtRender u half slot) s = .next (s.respond .unsupported []) := by
  rw [exec_tgtRender, withDev_some _ _ _ _ unit, Views.withSlot_of_lt _ named, checkSupported,
    if_neg (ne_true_of_eq_false sup), orRaise_some, raise]

/-! ### What one device's part may change

Only that device's cached bytes and flag, and the bus, by writes addressed to it. -/

/-- The entry a bus write adds to the trace. -/
def written (s : State) (d : Dev) (frame : List Byte) : BusWrite where
  addr := pick s.par.devAddr d
  frame := frame
  answer := s.nextAnswer

/-- From `s` to `t` the writes `ws`, all to device `d`, were made, and besides the bus only `d`'s cached bytes and its
flag may differ. -/
def TouchesOnly (d : Dev) (ws : List BusWrite) (s t : State) : Prop :=
  (∀ w ∈ ws, w.addr = pick s.par.devAddr d) ∧ ∃ cache flag answers draws,
    t = { s with
      drv := put s.drv d cache, needsReinit := put s.needsReinit d flag
      busOut := s.busOut ++ ws, busIn := answers, draws := draws }

theorem touchesOnly_busWrite (d : Dev) (frame : List Byte) (s : State) :
    TouchesOnly d [written s d frame] s (s.busWrite d frame) := by
  refine ⟨by simp [written], pick s.drv d, pick s.needsReinit d, s.busIn.tail, (s.busWrite d frame).draws, ?_⟩
  rw [put_pick_same, put_pick_same]
  rfl

theorem touchesOnly_setLit (d : Dev) (v : Byte) (s : State) : TouchesOnly d [] s (s.setLit d v) := by
  refine ⟨by simp, { pick s.drv d with lit := v }, pick s.needsReinit d, s.busIn, s.draws, ?_⟩
  rw [put_pick_same, List.append_nil]
  rfl

theorem touchesOnly_setCfg (d : Dev) (v : Byte) (s : State) : TouchesOnly d [] s (s.setCfg d v) := by
  refine ⟨by simp, { pick s.drv d with cfg := v }, pick s.needsReinit d, s.busIn, s.draws, ?_⟩
  rw [put_pick_same, List.append_nil]
  rfl

theorem touchesOnly_setReinit (d : Dev) (v : Bool) (s : State) : TouchesOnly d [] s (s.setReinit d v) := by
  refine ⟨by simp, pick s.drv d, v, s.busIn, s.draws, ?_⟩
  rw [put_pick_same, List.append_nil]
  rfl

theorem TouchesOnly.trans {d : Dev} {ws ws' : List BusWrite} {s t u : State} (first : TouchesOnly d ws s t)
    (second : TouchesOnly d ws' t u) : TouchesOnly d (ws ++ ws') s u := by
  obtain ⟨addressed, _, _, _, _, rfl⟩ := first
  obtain ⟨addressed', cache, flag, answers, draws, rfl⟩ := second
  refine ⟨fun w hw => ?_, cache, flag, answers, draws, ?_⟩
  · exact (List.mem_append.mp hw).elim (addressed w) (addressed' w)
  · simp only [put_put_same, List.append_assoc]

theorem TouchesOnly.addressed {d : Dev} {ws : List BusWrite} {s t : State} (h : TouchesOnly d ws s t) :
    ∀ w ∈ ws, w.addr = pick s.par.devAddr d := h.1

theorem TouchesOnly.busOut {d : Dev} {ws : List BusWrite} {s t : State} (h : TouchesOnly d ws s t) :
    t.busOut = s.busOut ++ ws := by
  obtain ⟨-, _, _, _, _, rfl⟩ := h
  rfl

theorem TouchesOnly.par {d : Dev} {ws : List BusWrite} {s t : State} (h : TouchesOnly d ws s t) : t.par = s.par := by
  obtain ⟨-, _, _, _, _, rfl⟩ := h
  rfl

theorem TouchesOnly.canvasByte {d : Dev} {ws : List BusWrite} {s t : State} (h : TouchesOnly d ws s t) (r j : Int) :
    t.canvasByte r j = s.canvasByte r j := by
  obtain ⟨-, _, _, _, _, rfl⟩ := h
  rfl

theorem TouchesOnly.renderFrames {d : Dev} {ws : List BusWrite} {s t : State} (h : TouchesOnly d ws s t) (e : Dev) :
    renderFrames t e = renderFrames s e := by
  simp only [Sys2Proof.Machine.renderFrames, h.par, pull_congr s t h.canvasByte]

theorem TouchesOnly.drv_other {d e : Dev} {ws : List BusWrite} {s t : State} (h : TouchesOnly d ws s t) (other : e ≠ d) :
    pick t.drv e = pick s.drv e := by
  obtain ⟨-, _, _, _, _, rfl⟩ := h
  exact pick_put_other _ _ _ _ other

theorem TouchesOnly.needsReinit_other {d e : Dev} {ws : List BusWrite} {s t : State} (h : TouchesOnly d ws s t)
    (other : e ≠ d) : pick t.needsReinit e = pick s.needsReinit e := by
  obtain ⟨-, _, _, _, _, rfl⟩ := h
  exact pick_put_other _ _ _ _ other

/-- The frame of SCR.RENDER: what two devices' parts may change together. -/
theorem TouchesOnly.unchanged {d e : Dev} {ws ws' : List BusWrite} {s t u : State} (first : TouchesOnly d ws s t)
    (second : TouchesOnly e ws' t u) :
    u = { s with
      drv := u.drv, needsReinit := u.needsReinit, busOut := u.busOut, busIn := u.busIn, draws := u.draws } := by
  obtain ⟨-, _, _, _, _, rfl⟩ := first
  obtain ⟨-, _, _, _, _, rfl⟩ := second
  rfl

/-! ### The reinit sequence (R193) -/

/-- How the reinit sequence of device `d`, from `s` to `t` with the writes `ws`, can end: at its first failure, after `k`
steps answered `ok`, or with all three answered `ok`. -/
inductive ReinitOutcome (d : Dev) (s t : State) (ws : List BusWrite) : Bool → Prop
  | failed (k : Nat) (early : k < 3) (frames : ws.map BusWrite.frame = (reinitFrames (pick s.drv d)).take (k + 1))
      (errors : ws.map (fun w => isErr w.answer) = List.replicate k false ++ [true])
      (cache : pick t.drv d = afterReinitSteps (pick s.drv d) k) : ReinitOutcome d s t ws false
  | completed (frames : ws.map BusWrite.frame = reinitFrames (pick s.drv d))
      (errors : ws.any (fun w => isErr w.answer) = false)
      (cache : pick t.drv d = afterReinitSteps (pick s.drv d) 3) : ReinitOutcome d s t ws true

theorem reinitCfg_eq (s : State) (d : Dev) : reinitCfg s d = cfgBoth (pick s.drv d) := rfl

/-- The state after the reset frame. -/
def resetSent (d : Dev) (s : State) : State := s.busWrite d frameReset

/-- The state after the reset frame and the Lighting frame, both answered `ok`. -/
def lightingCached (d : Dev) (s : State) : State :=
  ((resetSent d s).busWrite d (frameLighting (lit20mA (pick s.drv d)))).setLit d (lit20mA (pick s.drv d))

/-- The state after the whole sequence, answered `ok`. -/
def configCached (d : Dev) (s : State) : State :=
  ((lightingCached d s).busWrite d (frameConfig (cfgBoth (pick s.drv d)))).setCfg d (cfgBoth (pick s.drv d))

theorem reinitCfg_lightingCached (d : Dev) (s : State) :
    reinitCfg (lightingCached d s) d = cfgBoth (pick s.drv d) := by
  simp [reinitCfg_eq, lightingCached, resetSent, cfgBoth]

theorem reinit_of_reset_err {d : Dev} {s : State} (h : isErr s.nextAnswer = true) :
    reinit d s = (false, resetSent d s) := if_pos h

theorem reinit_of_lighting_err {d : Dev} {s : State} (ok : isErr s.nextAnswer = false)
    (h : isErr (resetSent d s).nextAnswer = true) :
    reinit d s = (false, (resetSent d s).busWrite d (frameLighting (lit20mA (pick s.drv d)))) :=
  (if_neg (ne_true_of_eq_false ok)).trans (if_pos h)

theorem reinit_of_lighting_ok {d : Dev} {s : State} (ok : isErr s.nextAnswer = false)
    (ok' : isErr (resetSent d s).nextAnswer = false) : reinit d s = reinitConfig d (lightingCached d s) :=
  (if_neg (ne_true_of_eq_false ok)).trans (if_neg (ne_true_of_eq_false ok'))

theorem reinitConfig_of_err {d : Dev} {s : State} (h : isErr (lightingCached d s).nextAnswer = true) :
    reinitConfig d (lightingCached d s) =
      (false, (lightingCached d s).busWrite d (frameConfig (cfgBoth (pick s.drv d)))) := by
  rw [reinitConfig, reinitCfg_lightingCached]
  exact if_pos h

theorem reinitConfig_of_ok {d : Dev} {s : State} (h : isErr (lightingCached d s).nextAnswer = false) :
    reinitConfig d (lightingCached d s) = (true, configCached d s) := by
  rw [reinitConfig, reinitCfg_lightingCached]
  exact if_neg (ne_true_of_eq_false h)

theorem touchesOnly_resetSent (d : Dev) (s : State) : TouchesOnly d [written s d frameReset] s (resetSent d s) :=
  touchesOnly_busWrite d frameReset s

theorem touchesOnly_lightingCached (d : Dev) (s : State) :
    TouchesOnly d [written s d frameReset, written (resetSent d s) d (frameLighting (lit20mA (pick s.drv d)))] s
      (lightingCached d s) :=
  ((touchesOnly_resetSent d s).trans (touchesOnly_busWrite d _ _)).trans (touchesOnly_setLit d _ _)

/-- The sequence touches only its device and leaves every flag alone; the three answers decide how it ends. -/
theorem reinit_cases (d : Dev) (s : State) :
    ∃ ws, TouchesOnly d ws s (reinit d s).2 ∧ (reinit d s).2.needsReinit = s.needsReinit ∧
      ReinitOutcome d s (reinit d s).2 ws (reinit d s).1 := by
  cases answer1 : isErr s.nextAnswer with
  | true =>
    rw [reinit_of_reset_err answer1]
    exact ⟨_, touchesOnly_resetSent d s, rfl, .failed 0 (by omega) rfl (by simp [written, answer1]) rfl⟩
  | false =>
    cases answer2 : isErr (resetSent d s).nextAnswer with
    | true =>
      rw [reinit_of_lighting_err answer1 answer2]
      exact ⟨_, (touchesOnly_resetSent d s).trans (touchesOnly_busWrite d _ _), rfl,
        .failed 1 (by omega) rfl (by simp [written, answer1, answer2]) rfl⟩
    | false =>
      rw [reinit_of_lighting_ok answer1 answer2]
      cases answer3 : isErr (lightingCached d s).nextAnswer with
      | true =>
        rw [reinitConfig_of_err answer3]
        exact ⟨_, (touchesOnly_lightingCached d s).trans (touchesOnly_busWrite d _ _), rfl,
          .failed 2 (by omega) rfl (by simp [written, answer1, answer2, answer3])
            (by simp [lightingCached, resetSent, afterReinitSteps])⟩
      | false =>
        rw [reinitConfig_of_ok answer3]
        exact ⟨_, ((touchesOnly_lightingCached d s).trans (touchesOnly_busWrite d _ _)).trans (touchesOnly_setCfg d _ _),
          rfl, .completed rfl (by simp [written, answer1, answer2, answer3])
            (by simp [configCached, lightingCached, resetSent, afterReinitSteps])⟩

/-! ### The frame sequence and one device's part (R194, R195) -/

@[simp] theorem reinitFrames_length (v : Driver) : (reinitFrames v).length = 3 := rfl
@[simp] theorem renderFrames_length (s : State) (d : Dev) : (renderFrames s d).length = 3 := rfl

/-- All three frames are attempted, and the flag becomes the OR of their errors. -/
theorem renderFrame_writes (d : Dev) (s : State) :
    ∃ ws, TouchesOnly d ws s (renderFrame d s) ∧ ws.map BusWrite.frame = renderFrames s d ∧
      pick (renderFrame d s).needsReinit d = ws.any (fun w => isErr w.answer) ∧ (renderFrame d s).drv = s.drv := by
  refine ⟨_, (((touchesOnly_busWrite d (primFrame s d) s).trans (touchesOnly_busWrite d (secFrame s d) _)).trans
    (touchesOnly_busWrite d frameUpdate _)).trans (touchesOnly_setReinit d _ _), ?_, ?_, rfl⟩
  · rfl
  · simp [renderFrame, written, frameFlag, Bool.or_assoc]

theorem renderDev_of_clear {d : Dev} {s : State} (flag : pick s.needsReinit d = false) :
    renderDev d s = renderFrame d s := if_neg (ne_true_of_eq_false flag)

theorem renderDev_of_failed {d : Dev} {s : State} (flag : pick s.needsReinit d = true) (failed : (reinit d s).1 = false) :
    renderDev d s = (reinit d s).2 := (if_pos flag).trans (if_neg (ne_true_of_eq_false failed))

theorem renderDev_of_completed {d : Dev} {s : State} (flag : pick s.needsReinit d = true)
    (completed : (reinit d s).1 = true) : renderDev d s = renderFrame d ((reinit d s).2.setReinit d false) :=
  (if_pos flag).trans (if_pos completed)

/-- One device's part of SCR.RENDER touches only that device and follows its sequence. -/
theorem renderDev_trace (d : Dev) (s : State) :
    ∃ ws, TouchesOnly d ws s (renderDev d s) ∧
      DeviceTrace s d ws (pick (renderDev d s).needsReinit d) (pick (renderDev d s).drv d) := by
  cases flag : pick s.needsReinit d with
  | false =>
    rw [renderDev_of_clear flag]
    obtain ⟨ws, touches, frames, newFlag, cache⟩ := renderFrame_writes d s
    exact ⟨ws, touches, touches.addressed, .inl ⟨flag, frames, newFlag, by rw [cache]⟩⟩
  | true =>
    obtain ⟨ws, touches, flagKept, outcome⟩ := reinit_cases d s
    cases ended : (reinit d s).1 with
    | false =>
      rw [renderDev_of_failed flag ended]
      rw [ended] at outcome
      obtain ⟨k, early, frames, errors, cache⟩ := outcome
      exact ⟨ws, touches, touches.addressed, .inr (.inl ⟨flag, k, early, frames, errors, by rw [flagKept, flag], cache⟩)⟩
    | true =>
      rw [renderDev_of_completed flag ended]
      rw [ended] at outcome
      obtain - | ⟨frames, errors, cache⟩ := outcome
      have cleared := touches.trans (touchesOnly_setReinit d false (reinit d s).2)
      obtain ⟨ws', touches', frames', newFlag, cache'⟩ := renderFrame_writes d ((reinit d s).2.setReinit d false)
      have three : ws.length = 3 := by simpa using congrArg List.length frames
      have both : TouchesOnly d (ws ++ ws') s _ := (List.append_nil ws) ▸ cleared.trans touches'
      refine ⟨ws ++ ws', both, both.addressed, .inr (.inr ⟨flag, ?_, ?_, ?_, ?_⟩)⟩
      · rw [List.map_append, frames, frames', cleared.renderFrames]
      · rw [List.take_left' three, errors]
      · rw [List.drop_left' three, newFlag]
      · rw [cache', setReinit_drv, cache]

/-! ### Two devices in turn (R195) -/

/-- A device's trace depends on the parameters, the canvas and its own flag and cached bytes: another device's part
before it makes no difference. -/
theorem deviceTrace_of_touchesOnly_other {d e : Dev} {ws ws' : List BusWrite} {s t : State} {flag : Bool} {cache : Driver}
    (before : TouchesOnly d ws s t) (other : e ≠ d) (trace : DeviceTrace t e ws' flag cache) :
    DeviceTrace s e ws' flag cache := by
  rwa [DeviceTrace, before.par, before.needsReinit_other other, before.drv_other other, before.renderFrames] at trace

/-- A device's part makes one to six writes. -/
theorem length_bounds_of_deviceTrace {s : State} {d : Dev} {ws : List BusWrite} {flag : Bool} {cache : Driver}
    (h : DeviceTrace s d ws flag cache) : 1 ≤ ws.length ∧ ws.length ≤ 6 := by
  rw [← List.length_map (f := BusWrite.frame)]
  obtain ⟨-, ⟨-, frames, -⟩ | ⟨-, k, early, frames, -⟩ | ⟨-, frames, -⟩⟩ := h
  · rw [frames, renderFrames_length]
    omega
  · rw [frames, List.length_take, reinitFrames_length]
    omega
  · rw [frames, List.length_append, reinitFrames_length, renderFrames_length]
    omega

/-- The state SCR.RENDER responds from: device 0's part, then device 1's. -/
def rendered (s : State) : State := renderDev .d1 (renderDev .d0 s)

theorem rendered_traces (s : State) :
    ∃ ws0 ws1, (rendered s).busOut = s.busOut ++ ws0 ++ ws1 ∧
      DeviceTrace s .d0 ws0 (rendered s).needsReinit.d0 (rendered s).drv.d0 ∧
      DeviceTrace s .d1 ws1 (rendered s).needsReinit.d1 (rendered s).drv.d1 ∧
      rendered s = { s with
        drv := (rendered s).drv, needsReinit := (rendered s).needsReinit, busOut := (rendered s).busOut
        busIn := (rendered s).busIn, draws := (rendered s).draws } := by
  obtain ⟨ws0, touches0, trace0⟩ := renderDev_trace .d0 s
  obtain ⟨ws1, touches1, trace1⟩ := renderDev_trace .d1 (renderDev .d0 s)
  rw [← touches1.needsReinit_other (by decide), ← touches1.drv_other (by decide)] at trace0
  exact ⟨ws0, ws1, by rw [rendered, touches1.busOut, touches0.busOut], trace0,
    deviceTrace_of_touchesOnly_other touches0 (by decide) trace1, touches0.unchanged touches1⟩

theorem exec_scrRender_of_answered {s : State}
    (answered : ∀ k, s.busStall = some k → k < s.busOut.length ∨ (rendered s).busOut.length ≤ k) :
    exec .scrRender s = .next ((rendered s).respond .ok []) := by
  rw [exec_scrRender]
  exact settle_answered _ _ answered

/-! ### The recovery flags' byte (R196) -/

theorem reinitByte_eq_ofNat (f : PerDev Bool) :
    reinitByte f = BitVec.ofNat 8 ((if f.d0 then 1 else 0) + (if f.d1 then 2 else 0)) := by
  obtain ⟨f0, f1⟩ := f
  cases f0 <;> cases f1 <;> rfl

/-! ### The obligations -/

/-- Settles O53: each device's part follows its sequence, and device 0's part leaves device 1's inputs alone. -/
theorem scrRenderFollowsTheDeviceSequences : Obligations.ScrRenderFollowsTheDeviceSequences := by
  intro s answered
  obtain ⟨ws0, ws1, bus, trace0, trace1, unchanged⟩ := rendered_traces s
  have bounds0 := length_bounds_of_deviceTrace trace0
  have bounds1 := length_bounds_of_deviceTrace trace1
  have total : (ws0 ++ ws1).length = ws0.length + ws1.length := List.length_append
  have answers : exec .scrRender s = .next ((rendered s).respond .ok []) := by
    refine exec_scrRender_of_answered (fun k hk => ?_)
    have := answered k hk
    rw [bus, List.append_assoc, List.length_append]
    omega
  have index : (rendered s).n = s.n := by rw [unchanged]
  refine ⟨_, ws0, ws1, answers, rfl, congrArg (· + 1) index, bus, trace0, trace1, by omega, by omega, ?_⟩
  rw [respond_n, index]
  exact congrArg (State.respond · .ok []) unchanged

/-- Settles O52: a supported chain's pulled bytes are its pointwise bytes, and the frame is one driver write. -/
theorem tgtRenderResult : Obligations.TgtRenderResult := by
  intro s u slot d half base unit named window
  have base_eq : base = baseOf half := by
    obtain ⟨rfl, rfl⟩ | ⟨rfl, rfl⟩ := window
    · rfl
    · rfl
  subst base_eq
  refine ⟨fun sup answered => ?_, exec_tgtRender_of_not_supported half unit named⟩
  rw [exec_tgtRender_of_supported half unit named sup]
  exact ⟨Drivers.drvWrite_of_ok d _ id answered fun _ => rfl,
    fun _ => Drivers.drvWrite_of_err d _ id answered fun _ => rfl⟩

/-- Settles O56: flag 0 has weight 1 and flag 1 weight 2. -/
theorem scrReinitResult : Obligations.ScrReinitResult := by
  intro s
  rw [exec_scrReinit, reinitByte_eq_ofNat, finish]

end Sys2Proof.Screen

/-! How commands end (60_exceptions.md R210 to R216, R226): one account of everything a command can answer once its payload is
there, and of everything a step can answer. -/

namespace Sys2Proof.Exceptions

open Sys2Proof.Machine

/-! ### What a command can answer -/

/-- What a command that has its payload can answer from `s`: OK, a status raised with nothing changed, TRANSPORT after one
bus write answered `err`, or the wait for a bus write that is never answered. -/
inductive Ends (s : State) : Exec → Prop
  | finished (t : State) (data : List Byte) (index : t.n = s.n) (host : t.hostIn = s.hostIn) :
      Ends s (.next (t.respond .ok data))
  | raised (c : Status) (notOk : c ≠ .ok) (notTransport : c ≠ .transport) : Ends s (.next (s.respond c []))
  | transport (d : Dev) (frame : List Byte) (e : Byte) (err : s.nextAnswer = .err e) :
      Ends s (.next ((s.busWrite d frame).respond .transport [e]))
  | stuck (k : Nat) (stall : s.busStall = some k) (notYetMade : s.busOut.length ≤ k) : Ends s (.fault .waitBus)

theorem Ends.next_or_waitBus {s : State} {x : Exec} (h : Ends s x) :
    (∃ t, x = .next t) ∨ (x = .fault .waitBus ∧ ∃ k, s.busStall = some k ∧ s.busOut.length ≤ k) := by
  cases h with
  | finished | raised | transport => exact .inl ⟨_, rfl⟩
  | stuck k stall notYetMade => exact .inr ⟨rfl, k, stall, notYetMade⟩

/-! ### The shared operations -/

/-- A command that only computes its data ends OK. -/
theorem ends_finish (s : State) (data : List Byte) : Ends s (finish data s) := .finished s data rfl rfl

theorem ends_orRaise {s : State} {c : Option Status} {k : Exec} (plain : ∀ st, c = some st → st ≠ .ok ∧ st ≠ .transport)
    (rest : Ends s k) : Ends s (orRaise c s k) := by
  cases c with
  | none => exact rest
  | some st => exact .raised st (plain st rfl).1 (plain st rfl).2

theorem ends_withDev {s : State} {u : Nat} {k : Dev → Exec} (rest : ∀ d, Ends s (k d)) : Ends s (withDev u s k) := by
  unfold withDev
  split
  · exact rest _
  · exact .raised .badUnit (by decide) (by decide)

theorem ends_withSlot {s : State} {slot : Nat} {k : Exec} (rest : Ends s k) : Ends s (withSlot slot s k) := by
  unfold withSlot
  split
  · exact rest
  · exact .raised .badUnit (by decide) (by decide)

/-- Settling waits only for a write that had not been made when the command began. -/
theorem ends_settle {s r : State} (rest : Ends s (.next r)) : Ends s (settle s r) := by
  unfold settle
  split
  · exact rest
  · next k stall =>
    split
    · next made => exact .stuck k stall made.1
    · exact rest

theorem ends_drvWrite {s : State} {d : Dev} {frame : List Byte} {onOk : State → State} (index : ∀ t, (onOk t).n = t.n)
    (host : ∀ t, (onOk t).hostIn = t.hostIn) : Ends s (drvWrite d frame onOk s) := by
  refine ends_settle ?_
  split
  · exact .finished _ [] (index _) (host _)
  · next e err => exact .transport d frame e err

/-- A command that raises a plain status unless `p` holds. -/
theorem ends_unless {s : State} {p : Prop} [Decidable p] {c : Status} {k : Exec} (plain : c ≠ .ok ∧ c ≠ .transport)
    (rest : Ends s k) : Ends s (orRaise (if p then none else some c) s k) := by
  refine ends_orRaise (fun st h => ?_) rest
  obtain ⟨-, ⟨⟩⟩ := Option.ite_none_left_eq_some.mp h
  exact plain

theorem ends_checkRow {s : State} {y : Int} {k : Exec} (rest : Ends s k) : Ends s (orRaise (checkRow s y) s k) :=
  ends_unless (by decide) rest

theorem ends_checkCol {s : State} {x y : Int} {limit : Nat} {k : Exec} (rest : Ends s k) :
    Ends s (orRaise (checkCol s x limit y) s k) := by
  refine ends_orRaise (fun st h => ?_) rest
  obtain rfl | rfl := checkCol_some s x limit y st h
  · decide
  · decide

theorem ends_checkSupported {s : State} {c : List Stage} {dir : Dir} {k : Exec} (rest : Ends s k) :
    Ends s (orRaise (checkSupported c dir) s k) := ends_unless (by decide) rest

theorem ends_appendStage (slot : Nat) (g : Stage) (s : State) : Ends s (appendStage slot g s) :=
  ends_unless (by decide) (.finished _ [] rfl rfl)

theorem ends_cvNew (w h : Nat) (s : State) : Ends s (execCvNew w h s) := by
  refine ends_orRaise (fun st hst => ?_) (.finished _ [] rfl rfl)
  split at hst
  · cases hst
    decide
  · obtain ⟨-, ⟨⟩⟩ := Option.ite_none_right_eq_some.mp hst
    decide

theorem ends_cvDraw (x y : Int) (alpha : Byte) (s : State) : Ends s (execCvDraw x y alpha s) := by
  unfold execCvDraw
  split
  · split
    · exact .finished _ [] rfl rfl
    · exact .finished _ [] rfl rfl
  · exact ends_finish s []

theorem ends_scrRender (s : State) : Ends s (execScrRender s) := by
  obtain ⟨_, _, -, -, -, unchanged⟩ := Screen.rendered_traces s
  exact ends_settle (.finished (Screen.rendered s) [] (by rw [unchanged]) (by rw [unchanged]))

/-! ### The payload comes first (R213) -/

/-- The state after `len` bytes of the payload stream were taken. -/
def payloadTaken (len : Nat) (s : State) : State := { s with payIn := s.payIn.drop len }

theorem withPayload_short {len : Nat} {s : State} (k : List Byte → State → Exec) (short : s.payIn.length < len) :
    withPayload len s k = .fault .waitPayload := if_pos short

theorem ends_withPayload {len : Nat} {s : State} {k : List Byte → State → Exec} (ready : len ≤ s.payIn.length)
    (rest : ∀ p, Ends (payloadTaken len s) (k p (payloadTaken len s))) :
    Ends (payloadTaken len s) (withPayload len s k) := by
  rw [withPayload_ready len s k ready]
  exact rest _

theorem ends_cvRoww {y : Int} {s : State} (ready : s.rowLen ≤ s.payIn.length) :
    Ends (payloadTaken s.rowLen s) (execCvRoww y s) :=
  ends_withPayload ready fun p =>
    ends_checkRow (.finished (State.writeBytes _ y 0 p) [] (writeBytes_n ..) (writeBytes_hostIn ..))

theorem ends_windowWrite {base : Byte} {u r count : Nat} {s : State} (ready : count ≤ s.payIn.length) :
    Ends (payloadTaken count s) (windowWrite base u r count s) := by
  refine ends_withPayload ready fun _ => ends_withDev fun _ => ends_orRaise (fun st h => ?_) ?_
  · obtain ⟨-, ⟨⟩⟩ := Option.ite_none_right_eq_some.mp h
    decide
  · exact ends_drvWrite (fun _ => rfl) (fun _ => rfl)

/-- A command whose payload is not there waits for it. -/
theorem exec_of_short_payload {i : Instr} {s : State} (short : s.payIn.length < commandPayload s i) :
    exec i s = .fault .waitPayload := by
  cases i
  case cvRoww => exact (Canvas.exec_cvRoww ..).trans (withPayload_short _ short)
  case drvM1rows => exact (Drivers.exec_drvM1rows ..).trans (withPayload_short _ short)
  case drvM2rows => exact (Drivers.exec_drvM2rows ..).trans (withPayload_short _ short)
  all_goals exact absurd short (Nat.not_lt_zero _)

/-- A command whose payload is there ends in one of the four ways, from the state with the payload taken. -/
theorem exec_ends {i : Instr} {s : State} (ready : commandPayload s i ≤ s.payIn.length) :
    Ends (payloadTaken (commandPayload s i) s) (exec i s) := by
  cases i
  case cvNew w h => exact ends_cvNew w h s
  case cvWidth => exact ends_finish s _
  case cvHeight => exact ends_finish s _
  case cvCapw => exact ends_finish s _
  case cvCaph => exact ends_finish s _
  case cvRow => exact ends_checkRow (ends_finish s _)
  case cvRoww y => exact ends_cvRoww ready
  case cvByte => exact ends_checkCol (ends_finish s _)
  case cvBytew => exact ends_checkCol (.finished _ [] rfl rfl)
  case cvBit => exact ends_checkCol (ends_finish s _)
  case cvBitw => exact ends_checkCol (.finished _ [] rfl rfl)
  case cvAlpha => exact ends_finish s _
  case cvAlphaw => exact .finished _ [] rfl rfl
  case cvDraw x y alpha => exact ends_cvDraw x y alpha s
  case vwClear => exact ends_withSlot (.finished _ [] rfl rfl)
  case vwFlip slot => exact ends_withSlot (ends_appendStage slot _ s)
  case vwOffset slot _ _ => exact ends_withSlot (ends_appendStage slot _ s)
  case vwRot90 slot => exact ends_withSlot (ends_appendStage slot _ s)
  case vwBitslen => exact ends_withSlot (ends_finish s _)
  case vwRead => exact ends_withSlot (ends_checkSupported (ends_finish s _))
  case vwReadrev => exact ends_withSlot (ends_checkSupported (ends_finish s _))
  case bitidx => exact ends_finish s _
  case drvPwm => exact ends_withDev fun _ => ends_drvWrite (fun _ => rfl) (fun _ => rfl)
  case drvM1rows => exact ends_windowWrite ready
  case drvM2rows => exact ends_windowWrite ready
  case drvUpdate => exact ends_withDev fun _ => ends_drvWrite (fun _ => rfl) (fun _ => rfl)
  case drvReset => exact ends_withDev fun _ => ends_drvWrite (fun _ => rfl) (fun _ => rfl)
  case drvModcfg => exact ends_withDev fun _ => ends_drvWrite (fun _ => rfl) (fun _ => rfl)
  case drvModlit => exact ends_withDev fun _ => ends_drvWrite (fun _ => rfl) (fun _ => rfl)
  case drvCfg => exact ends_withDev fun _ => ends_finish s _
  case drvLit => exact ends_withDev fun _ => ends_finish s _
  case tgtRender =>
    exact ends_withDev fun _ => ends_withSlot (ends_checkSupported (ends_drvWrite (fun _ => rfl) (fun _ => rfl)))
  case scrRender => exact ends_scrRender s
  case scrReinit => exact ends_finish s _

/-- A command that answers a next state had its payload, and ended in one of the first three ways. -/
theorem ends_of_exec_next {i : Instr} {s t : State} (h : exec i s = .next t) :
    Ends (payloadTaken (commandPayload s i) s) (.next t) := by
  by_cases ready : commandPayload s i ≤ s.payIn.length
  · exact h ▸ exec_ends ready
  · rw [exec_of_short_payload (Nat.lt_of_not_le ready)] at h
    cases h

/-- SCR.RENDER reports no failed write: its status is OK (43_target_screen.md R195). -/
theorem scrRender_response {s t : State} (h : exec .scrRender s = .next t) :
    t.response = some { status := .ok, data := [] } := by
  rw [Screen.exec_scrRender] at h
  rw [settle_next _ _ _ h, respond_response]

/-! ### What a step can answer (R226) -/

/-- The payload of a word is the payload of the command it spells. -/
theorem payloadLen_of_decode {w : CmdWord} {i : Instr} (s : State) (h : decode w = .ok i) :
    payloadLen w s = commandPayload s i := by
  unfold decode decodeFields at h
  split at h
  case h_35 => cases h
  all_goals
    next op =>
    obtain ⟨-, rfl⟩ := (Encoding.ifClear_eq_ok_iff ..).mp h
    simp only [payloadLen, op, commandPayload]

/-- A command word, decoded or illegal, waits exactly for the payload it takes, and then ends in one of the four ways. -/
theorem step_command {s : State} {w : CmdWord} {p : List Byte} {rest : List HostEvent}
    (hs : s.hostIn = .command w p :: rest) :
    ((s.payIn ++ p).length < payloadLen w s ∧ step s = .fault .waitPayload) ∨
    (payloadLen w s ≤ (s.payIn ++ p).length ∧ Ends (payloadTaken (payloadLen w s) (s.accept p rest)) (step s)) := by
  cases hd : decode w with
  | error e =>
    rw [Encoding.step_of_decode_error hs hd]
    obtain short | ready := Nat.lt_or_ge (s.payIn ++ p).length (payloadLen w s)
    · exact .inl ⟨short, withPayload_short _ short⟩
    · exact .inr ⟨ready, ends_withPayload ready fun _ => .raised .illegal (by decide) (by decide)⟩
  | ok i =>
    have executed : step s = exec i (s.accept p rest) := by simp [step, hs, hd]
    have len : payloadLen w s = commandPayload (s.accept p rest) i := payloadLen_of_decode (s.accept p rest) hd
    rw [executed, len]
    obtain short | ready := Nat.lt_or_ge (s.payIn ++ p).length (commandPayload (s.accept p rest) i)
    · exact .inl ⟨short, exec_of_short_payload short⟩
    · exact .inr ⟨ready, exec_ends ready⟩

/-! ### The obligations -/

/-- Settles O17: of the ways a command ends, TRANSPORT alone has data, the code its own write was answered with. -/
theorem dataOfAFailedCommand : Obligations.DataOfAFailedCommand := by
  intro i s t r answers response failed
  cases ends_of_exec_next answers with
  | finished u data =>
    obtain rfl := Option.some.inj response
    exact absurd rfl failed
  | raised c _ notTransport =>
    obtain rfl := Option.some.inj response
    exact ⟨fun h => absurd h notTransport, fun _ => rfl⟩
  | transport d frame e err =>
    obtain rfl := Option.some.inj response
    refine ⟨fun _ => ⟨e, frame, d, rfl, ?_⟩, fun h => absurd rfl h⟩
    rw [respond_busOut, busWrite_busOut, err]
    rfl

/-- Settles O14: of the ways a command ends, only OK changes a register, and only OK and TRANSPORT touch the bus. -/
theorem failedCommandsChangeNoState : Obligations.FailedCommandsChangeNoState := by
  intro i s t answers
  have screen (r : Response) (response : t.response = some r) (h : i = .scrRender) : r.status = .ok := by
    subst h
    rw [scrRender_response answers] at response
    exact congrArg Response.status (Option.some.inj response).symm
  cases ends_of_exec_next answers with
  | finished u data index host =>
    exact ⟨_, rfl, congrArg (· + 1) index, host, fun h => absurd rfl h, fun h => absurd rfl h, fun _ => rfl⟩
  | raised c =>
    exact ⟨_, rfl, rfl, rfl, fun _ => ⟨rfl, rfl, rfl, rfl, rfl, rfl, rfl, rfl, rfl⟩, fun _ _ => ⟨rfl, rfl, rfl, rfl⟩,
      screen _ rfl⟩
  | transport d frame e =>
    exact ⟨_, rfl, rfl, rfl, fun _ => Drivers.sameRegisters_busWrite s d frame, fun _ h => absurd rfl h, screen _ rfl⟩

/-- Settles O7: a step with no event, with the reset event, and with a command word, whose payload is short or there. -/
theorem onlyTheStuckWaitsGiveNoAnswer : Obligations.OnlyTheStuckWaitsGiveNoAnswer := by
  intro s
  match hs : s.hostIn with
  | [] =>
    have waits : step s = .fault .waitCommand := by simp [step, hs]
    simp [waits]
  | .reset :: rest =>
    have resets : step s = .next (s.resetEvent rest) := by simp [step, hs]
    simp [resets]
  | .command w p :: rest =>
    obtain ⟨short, waits⟩ | ⟨ready, ends⟩ := step_command hs
    · simpa [waits] using short
    · obtain ⟨t, answers⟩ | ⟨waits, stall⟩ := ends.next_or_waitBus
      · simpa [answers] using ready
      · simpa [waits] using ⟨List.length_append ▸ ready, stall⟩

end Sys2Proof.Exceptions

/-! Words and commands (30_encoding.md R70 to R73): the decoder and the encoder are inverse to each other, and the decoder
accepts exactly the words that spell a row of the opcode table. -/

namespace Sys2Proof.RoundTrip
open Sys2Proof.Machine

/-! ### Operands and their fields (30_encoding.md R71) -/

theorem toNat_unit4 {v : Nat} (h : unit4 v) : (BitVec.ofNat 4 v).toNat = v := Nat.mod_eq_of_lt h

theorem toNat_u16 {v : Nat} (h : unsigned16 v) : (u16 v).toNat = v := Nat.mod_eq_of_lt h

theorem toInt_s16 {v : Int} (low : -32768 ≤ v) (high : v ≤ 32767) : (s16 v).toInt = v := by
  rw [s16, BitVec.toInt_ofInt]
  exact Int.bmod_eq_of_le (by omega) (by omega)

theorem signed16_toInt (x : Half) : signed16 x.toInt := by
  have low := x.le_toInt
  have high := x.toInt_lt
  constructor <;> omega

@[simp] theorem s16_toInt (x : Half) : s16 x.toInt = x := BitVec.ofInt_toInt

@[simp] theorem u16_toNat (x : Half) : u16 x.toNat = x := by simp [u16]

/-- C of the fields of a command is the operand given for it. -/
@[simp] theorem c_fieldsOf (op : BitVec 8) (u : Nat) (k : BitVec 4) (a b c : Half) : (fieldsOf op u k a b c).c = c :=
  be16_append c

/-- The two bytes of a byte operand widened to C. -/
@[simp] theorem widened_bytes (v : Byte) :
    (v.setWidth 16).extractLsb' 8 8 = 0 ∧ (v.setWidth 16).extractLsb' 0 8 = v := by
  refine ⟨Laws.high_of_widened v, ?_⟩
  ext k hk
  have in_c : k < 16 := by omega
  simp [hk, in_c]

/-- The two bytes of C are its two byte operands. -/
@[simp] theorem joined_bytes (x y : Byte) :
    (x ++ y).extractLsb' 8 8 = x ∧ (x ++ y).extractLsb' 0 8 = y :=
  ⟨(extract_append_high x y 0 8).trans (extract_all x), extract_append_low x y⟩

@[simp] theorem op_fieldsOf (op : BitVec 8) (u : Nat) (k : BitVec 4) (a b c : Half) : (fieldsOf op u k a b c).op = op := rfl
@[simp] theorem u_fieldsOf (op : BitVec 8) (u : Nat) (k : BitVec 4) (a b c : Half) :
    (fieldsOf op u k a b c).u = BitVec.ofNat 4 u := rfl
@[simp] theorem k_fieldsOf (op : BitVec 8) (u : Nat) (k : BitVec 4) (a b c : Half) : (fieldsOf op u k a b c).k = k := rfl
@[simp] theorem a_fieldsOf (op : BitVec 8) (u : Nat) (k : BitVec 4) (a b c : Half) : (fieldsOf op u k a b c).a = a := rfl
@[simp] theorem b_fieldsOf (op : BitVec 8) (u : Nat) (k : BitVec 4) (a b c : Half) : (fieldsOf op u k a b c).b = b := rfl
@[simp] theorem ch_fieldsOf (op : BitVec 8) (u : Nat) (k : BitVec 4) (a b c : Half) :
    (fieldsOf op u k a b c).ch = c.extractLsb' 8 8 := rfl
@[simp] theorem cl_fieldsOf (op : BitVec 8) (u : Nat) (k : BitVec 4) (a b c : Half) :
    (fieldsOf op u k a b c).cl = c.extractLsb' 0 8 := rfl

theorem decode_encode (i : Instr) : decode (encode i) = decodeFields (encodeFields i) := by
  rw [decode, encode, Fields.ofWord_toWord]

/-- A 1-bit operand in bit 0 of K or of C is read back, and no other bit of the field is set. -/
theorem bit0_read_back : ∀ v : Bool, bit0 4 v &&& 0xE#4 = 0 ∧ (bit0 4 v)[0] = v ∧
    bit0 16 v &&& 0xFFFE#16 = 0 ∧ (bit0 16 v)[0] = v := by decide

theorem half_of_bit0 (half : Half8x8) :
    (if half = .secondary then Half8x8.secondary else .primary) = half := by
  cases half <;> rfl

/-- Each command's arm reads its operands from the fields they were written to, all other fields zero. -/
theorem decodeFields_encodeFields {i : Instr} (h : WellFormed i = true) : decodeFields (encodeFields i) = .ok i := by
  cases i <;> simp only [WellFormed, decide_eq_true_eq] at h
  all_goals
    simp [encodeFields, decodeFields, ifClear, toNat_unit4, toNat_u16, toInt_s16, h, bit0_read_back, half_of_bit0,
      -BitVec.toNat_ofNat]


/-! ### From a word to its command and back -/

/-- C split into its bytes and joined again. -/
@[simp] theorem bytes_c (f : Fields) : f.c.extractLsb' 8 8 = f.ch ∧ f.c.extractLsb' 0 8 = f.cl :=
  joined_bytes f.ch f.cl

theorem unit4_toNat (u : BitVec 4) : u.toNat < 16 := u.isLt

theorem unsigned16_toNat (x : Half) : x.toNat < 65536 := x.isLt

/-- K with only bit 0 free is a 1-bit operand. -/
theorem bit0_of_k : ∀ k : BitVec 4, k &&& 0xE#4 = 0#4 → bit0 4 k[0] = k := by decide

/-- The low byte of C with only bit 0 free is a 1-bit operand. -/
theorem bit0_of_cl : ∀ cl : Byte, cl &&& 0xFE#8 = 0#8 →
    (bit0 16 cl[0]).extractLsb' 8 8 = 0#8 ∧ (bit0 16 cl[0]).extractLsb' 0 8 = cl := by decide

theorem bit_of_half (b : Bool) : ((if b = true then Half8x8.secondary else .primary) == .secondary) = b := by
  cases b <;> rfl

/-- Every field a row leaves free is an operand, and every other bit is tested to be zero. -/
theorem encodeFields_of_decodeFields {f : Fields} {i : Instr} (h : decodeFields f = .ok i) :
    WellFormed i = true ∧ encodeFields i = f := by
  obtain ⟨op, u, k, a, b, ch, cl⟩ := f
  unfold decodeFields at h
  split at h
  case h_35 => cases h
  all_goals
    next hop =>
    obtain rfl := Encoding.eq_ofNat_of_toNat_eq hop
    obtain ⟨hclear, rfl⟩ := (Encoding.ifClear_eq_ok_iff ..).mp h
    simp only [Bool.and_eq_true, beq_iff_eq, Encoding.fields_c_eq_zero_iff, Encoding.fields_c_and_eq_zero_iff,
      BitVec.ofNat_eq_ofNat] at hclear
    simp [hclear, WellFormed, encodeFields, fieldsOf, signed16_toInt, unit4_toNat, unsigned16_toNat, bit0_of_k,
      bit0_of_cl, bit_of_half]


/-! ### A word that spells a row decodes -/

theorem and_ones4 (x : BitVec 4) : x &&& 0xF#4 = x := BitVec.and_allOnes
theorem and_ones8 (x : Byte) : x &&& 0xFF#8 = x := BitVec.and_allOnes
theorem and_ones16 (x : Half) : x &&& 0xFFFF#16 = x := BitVec.and_allOnes

theorem op_of_rowOf {op : BitVec 8} {r : OpRow} (h : Encoding.rowOf op = some r) : (Fields.ofWord r.pattern).op = op := by
  unfold Encoding.rowOf at h
  simpa using List.find?_some h

/-- The reserved bits tested by the arm of an opcode are no more than those its row's mask keeps. -/
theorem decodeFields_of_row {f : Fields} {r : OpRow} (row : Encoding.rowOf f.op = some r)
    (spells : f.and (Fields.ofWord r.mask) = Fields.ofWord r.pattern) : ∃ i, decodeFields f = .ok i := by
  obtain ⟨op, u, k, a, b, ch, cl⟩ := f
  unfold decodeFields
  split
  case h_35 =>
    have assigned := Encoding.pattern_op_assigned r (Encoding.mem_of_rowOf row)
    rw [op_of_rowOf row] at assigned
    simp only [imp_false] at *
    omega
  all_goals
    next hop =>
    obtain rfl := Encoding.eq_ofNat_of_toNat_eq hop
    cases row
    refine ⟨_, (Encoding.ifClear_eq_ok_iff ..).mpr ⟨?_, rfl⟩⟩
    simp [Fields.and, Fields.ofWord, and_ones4, and_ones8, and_ones16] at spells
    simp [spells, Encoding.fields_c_eq_zero_iff, Encoding.fields_c_and_eq_zero_iff]

theorem decode_of_spells {r : OpRow} {w : CmdWord} (hr : r ∈ opcodeTable) (h : r.spells w = true) :
    ∃ i, decode w = .ok i ∧ i.mnemonic = r.mnemonic := by
  have op := Encoding.op_eq_of_spells hr h
  have row : Encoding.rowOf (Fields.ofWord w).op = some r := op ▸ Encoding.rowOf_pattern_op r hr
  obtain ⟨i, decoded⟩ := decodeFields_of_row row ((OpRow.spells_iff r w).mp h)
  obtain ⟨r', hr', name, h'⟩ := Encoding.decode_ok_spells decoded
  obtain rfl := Encoding.eq_of_spells hr hr' op h'
  exact ⟨i, decoded, name.symm⟩

/-! ### The obligations -/

/-- Settles O1: decoding reads the fields the encoder wrote, and every operand is a value of its field. -/
theorem decodeOfEncode : Obligations.DecodeOfEncode := by
  intro i wellFormed
  rw [decode_encode, decodeFields_encodeFields wellFormed]

/-- Settles O2: the decoded command's fields are the word's fields, and a word is the word of its fields. -/
theorem encodeOfDecode : Obligations.EncodeOfDecode := by
  intro w i decoded
  obtain ⟨wellFormed, fields⟩ := encodeFields_of_decodeFields decoded
  exact ⟨wellFormed, by rw [encode, fields, Fields.toWord_ofWord]⟩

/-- Settles O3: each arm of the decoder tests exactly the reserved bits of its opcode's row. -/
theorem decodeAgreesWithOpcodeTable : Obligations.DecodeAgreesWithOpcodeTable :=
  fun _ => ⟨fun _ => Encoding.decode_ok_spells, fun _ => decode_of_spells⟩

/-- Settles O4: each of the eight words is decoded by evaluation. -/
theorem wordsOfTheSpecDecode : Obligations.WordsOfTheSpecDecode := by
  refine ⟨?_, ?_, ?_, ?_, ?_, ?_, ?_, ?_⟩ <;> decide

/-- Settles O5: the command arm of the step, on the accepted state. -/
theorem stepRunsDecodedCommand : Obligations.StepRunsDecodedCommand := by
  intro s w p rest i host decoded
  simp [step, host, decoded, State.accept]

end Sys2Proof.RoundTrip

/-! What a command that answers a next state has done (60_exceptions.md R213): one account for every command, and from it which
registers each command writes, its one response and payload, its status and data, and its bus writes. -/

namespace Sys2Proof.Effects

open Sys2Proof.Machine

/-! ### The effects -/

/-- What command `i` has done when it led from `s`, its payload already taken, to a next state. -/
inductive Effect (i : Instr) (s : State) : State → Prop
  | answered (data : List Byte) (length : data.length = okDataLength s i) : Effect i s (s.respond .ok data)
  | raised (c : Status) (named : i.mnemonic ∈ raisedBy c) (notOk : c ≠ .ok) (notTransport : c ≠ .transport) :
      Effect i s (s.respond c [])
  | created (w h : Nat) (command : i = .cvNew w h) (width : w ≤ s.par.capW) (height : h ≤ s.par.capH) :
      Effect i s (State.respond
        { s with
          cv := [], width := BitVec.ofNat 16 w, height := BitVec.ofNat 16 h, alphaSet := false, alphaThr := 0x00 }
        .ok [])
  | stored (y j : Int) (p : List Byte) (draws : Nat)
      (writer : i.mnemonic ∈ ["CV.ROWW", "CV.BYTEW", "CV.BITW", "CV.DRAW"]) (noData : okDataLength s i = 0)
      (row : s.liveRow y) (first : 0 ≤ j) (last : j + p.length ≤ s.rowLen) :
      Effect i s (State.respond { s with cv := (s.writeBytes y j p).cv, draws := draws } .ok [])
  | thresholdSet (present : Bool) (thr : Byte) (command : i = .cvAlphaw present thr) :
      Effect i s (State.respond { s with alphaSet := present, alphaThr := if present then thr else 0x00 } .ok [])
  | cleared (slot : Nat) (command : i = .vwClear slot) : Effect i s ((s.setChain slot []).respond .ok [])
  | appended (slot : Nat) (g : Stage) (command : i = stageCommand slot g)
      (room : (s.chain slot).length < s.par.viewDepth) :
      Effect i s ((s.setChain slot (s.chain slot ++ [g])).respond .ok [])
  | sent (d : Dev) (frame : List Byte) (cache : Driver) (size : 1 ≤ frame.length ∧ frame.length ≤ 12)
      (noData : okDataLength s i = 0)
      (cfg : cache.cfg ≠ (pick s.drv d).cfg → i.mnemonic = "DRV.MODCFG" ∧ (driverUnitOf i).bind devOf = some d)
      (lit : cache.lit ≠ (pick s.drv d).lit → i.mnemonic = "DRV.MODLIT" ∧ (driverUnitOf i).bind devOf = some d) :
      Effect i s (State.respond { s.busWrite d frame with drv := put s.drv d cache } .ok [])
  | failed (d : Dev) (frame : List Byte) (e : Byte) (size : 1 ≤ frame.length ∧ frame.length ≤ 12)
      (named : i.mnemonic ∈ raisedBy .transport) : Effect i s ((s.busWrite d frame).respond .transport [e])
  | rendered (command : i = .scrRender) : Effect i s ((Screen.rendered s).respond .ok [])

/-- Whatever next state a command's meaning `x` answers is one of the effects. -/
def Does (i : Instr) (s : State) (x : Exec) : Prop := ∀ t, x = .next t → Effect i s t

/-! ### The shared operations -/

/-- Whether a status lists a command does not depend on the command's operands, so evaluation decides it. -/
theorem listed {name : String} {names : List String} (h : decide (name ∈ names) = true := by rfl) : name ∈ names :=
  of_decide_eq_true h

theorem does_next {i : Instr} {s t : State} (effect : Effect i s t) : Does i s (.next t) :=
  fun _ h => Host.Outcome.next.inj h ▸ effect

theorem does_finish {i : Instr} {s : State} {data : List Byte} (length : data.length = okDataLength s i) :
    Does i s (finish data s) := does_next (.answered data length)

/-- A status that commands raise with no data and no change. -/
abbrev Plain (i : Instr) (c : Status) : Prop := i.mnemonic ∈ raisedBy c ∧ c ≠ .ok ∧ c ≠ .transport

theorem plain {i : Instr} {c : Status} (h : decide (Plain i c) = true := by rfl) : Plain i c := of_decide_eq_true h

theorem does_raise {i : Instr} {s : State} {c : Status} (h : Plain i c) : Does i s (raise c s) :=
  does_next (.raised c h.1 h.2.1 h.2.2)

theorem does_orRaise {i : Instr} {s : State} {c : Option Status} {k : Exec} (raises : ∀ st, c = some st → Plain i st)
    (rest : c = none → Does i s k) : Does i s (orRaise c s k) := by
  cases c with
  | none => exact rest rfl
  | some st => exact does_raise (raises st rfl)

theorem does_withDev {i : Instr} {s : State} {u : Nat} {k : Dev → Exec} (h : Plain i .badUnit)
    (rest : ∀ d, devOf u = some d → Does i s (k d)) : Does i s (withDev u s k) := by
  unfold withDev
  split
  · next d unit => exact rest d unit
  · exact does_raise h

theorem does_withSlot {i : Instr} {s : State} {slot : Nat} {k : Exec} (h : Plain i .badUnit) (rest : Does i s k) :
    Does i s (withSlot slot s k) := by
  unfold withSlot
  split
  · exact rest
  · exact does_raise h

theorem does_withPayload {i : Instr} {s : State} {len : Nat} {k : List Byte → State → Exec}
    (rest : ∀ p, p.length = len → Does i (Exceptions.payloadTaken len s) (k p (Exceptions.payloadTaken len s))) :
    Does i (Exceptions.payloadTaken len s) (withPayload len s k) := by
  intro t h
  obtain ⟨ready, taken⟩ := withPayload_next len s t k h
  exact rest _ (List.length_take_of_le ready) t taken

theorem does_checkRow {i : Instr} {s : State} {y : Int} {k : Exec} (plain : Plain i .yOob)
    (rest : s.liveRow y → Does i s k) : Does i s (orRaise (checkRow s y) s k) := by
  refine does_orRaise (fun st h => ?_) (fun h => rest ((checkRow_none s y).mp h))
  obtain ⟨-, ⟨⟩⟩ := Option.ite_none_left_eq_some.mp h
  exact plain

theorem does_checkCol {i : Instr} {s : State} {x y : Int} {limit : Nat} {k : Exec} (plainX : Plain i .xOob)
    (plainY : Plain i .yOob) (rest : 0 ≤ x ∧ x < (limit : Int) → s.liveRow y → Does i s k) :
    Does i s (orRaise (checkCol s x limit y) s k) := by
  refine does_orRaise (fun st h => ?_) (fun h => ?_)
  · obtain rfl | rfl := checkCol_some s x limit y st h
    · exact plainX
    · exact plainY
  · obtain ⟨column, row⟩ := (checkCol_none s x limit y).mp h
    exact rest column row

theorem does_checkSupported {i : Instr} {s : State} {c : List Stage} {dir : Dir} {k : Exec}
    (plain : Plain i .unsupported) (rest : supported c dir = true → Does i s k) :
    Does i s (orRaise (checkSupported c dir) s k) := by
  refine does_orRaise (fun st h => ?_) (fun h => rest ?_)
  · obtain ⟨-, ⟨⟩⟩ := Option.ite_none_left_eq_some.mp h
    exact plain
  · by_contra unsupported
    rw [checkSupported, if_neg unsupported] at h
    cases h

/-- One bus write as a command's last step: what it does on `ok` is the command's, on `err` it is TRANSPORT. -/
theorem does_drvWrite {i : Instr} {s : State} {d : Dev} {frame : List Byte} {onOk : State → State}
    (size : 1 ≤ frame.length ∧ frame.length ≤ 12) (named : i.mnemonic ∈ raisedBy .transport)
    (ok : Effect i s ((onOk (s.busWrite d frame)).respond .ok [])) : Does i s (drvWrite d frame onOk s) := by
  intro t h
  obtain ⟨-, rfl⟩ | ⟨e, -, rfl⟩ := drvWrite_next d frame onOk s t h
  · exact ok
  · exact .failed d frame e size named

/-- A write that caches nothing. -/
theorem effect_sent {i : Instr} {s : State} {d : Dev} {frame : List Byte} (size : 1 ≤ frame.length ∧ frame.length ≤ 12)
    (noData : okDataLength s i = 0) : Effect i s ((s.busWrite d frame).respond .ok []) := by
  have effect := Effect.sent (i := i) d frame (pick s.drv d) size noData (absurd rfl) (absurd rfl)
  rwa [put_pick_same] at effect

theorem does_plainWrite {i : Instr} {s : State} {d : Dev} {frame : List Byte}
    (size : 1 ≤ frame.length ∧ frame.length ≤ 12) (named : i.mnemonic ∈ raisedBy .transport)
    (noData : okDataLength s i = 0) : Does i s (drvWrite d frame id s) :=
  does_drvWrite size named (effect_sent size noData)

/-- A byte written to a live position is a run of one byte. -/
theorem effect_memWrite {i : Instr} {s : State} {y j : Int} {v : Byte} (draws : Nat)
    (writer : i.mnemonic ∈ ["CV.ROWW", "CV.BYTEW", "CV.BITW", "CV.DRAW"]) (noData : okDataLength s i = 0)
    (row : s.liveRow y) (column : s.liveByte j) :
    Effect i s (State.respond { s.memWrite y j v with draws := draws } .ok []) := by
  obtain ⟨first, last⟩ := column
  exact .stored y j [v] draws writer noData row first (by simpa using last)

/-! ### The commands with a meaning of their own -/

@[simp] theorem okDataLength_payloadTaken (len : Nat) (s : State) (i : Instr) :
    okDataLength (Exceptions.payloadTaken len s) i = okDataLength s i := by
  cases i <;> rfl

/-- A frame of one register byte and one data byte. -/
theorem size_pair (register data : Byte) : 1 ≤ [register, data].length ∧ [register, data].length ≤ 12 := by
  simp

theorem does_cvNew (w h : Nat) (s : State) : Does (.cvNew w h) s (execCvNew w h s) := by
  refine does_orRaise (fun st raised => ?_) (fun fits => ?_)
  · split at raised
    · cases raised
      exact plain
    · obtain ⟨-, ⟨⟩⟩ := Option.ite_none_right_eq_some.mp raised
      exact plain
  · have width : ¬ s.par.capW < w := fun large => by simp [large] at fits
    have height : ¬ s.par.capH < h := fun large => by simp [width, large] at fits
    exact does_next (.created w h rfl (Nat.not_lt.mp width) (Nat.not_lt.mp height))

theorem does_cvRoww (y : Int) (s : State) :
    Does (.cvRoww y) (Exceptions.payloadTaken s.rowLen s) (execCvRoww y s) := by
  refine does_withPayload fun p length => does_checkRow plain fun row => ?_
  rw [writeBytes_eq]
  refine does_next (.stored y 0 p _ listed rfl row le_rfl ?_)
  rw [length, Int.zero_add]
  exact le_rfl

theorem does_writePixel {i : Instr} {s : State} {x y : Int} {v : Bool} (draws : Nat)
    (writer : i.mnemonic ∈ ["CV.ROWW", "CV.BYTEW", "CV.BITW", "CV.DRAW"]) (noData : okDataLength s i = 0)
    (row : s.liveRow y) (column : s.livePixel x) :
    Does i s (finish [] { s.writePixel x y v with draws := draws }) :=
  does_next (effect_memWrite draws writer noData row (Canvas.liveByte_of_livePixel column))

theorem does_cvDraw (x y : Int) (alpha : Byte) (s : State) : Does (.cvDraw x y alpha) s (execCvDraw x y alpha s) := by
  unfold execCvDraw
  split
  · next live =>
    obtain ⟨column, row⟩ := live
    split
    · exact does_writePixel s.draws listed rfl row column
    · exact does_writePixel (s.draws + 1) listed rfl row column
  · exact does_finish rfl

theorem does_stageCommand (slot : Nat) (g : Stage) (s : State) :
    Does (stageCommand slot g) s (withSlot slot s (appendStage slot g s)) := by
  have unit : Plain (stageCommand slot g) .badUnit := by cases g <;> exact plain
  have full : Plain (stageCommand slot g) .depthFull := by cases g <;> exact plain
  refine does_withSlot unit fun t h => ?_
  obtain ⟨room, rfl⟩ | ⟨-, rfl⟩ := appendStage_next slot g s t h
  · exact .appended slot g rfl room
  · exact .raised .depthFull full.1 full.2.1 full.2.2

/-- The two window writes: what fits the window makes a frame of at most 12 bytes. -/
theorem does_windowWrite {i : Instr} {s : State} (base : Byte) (u r count : Nat) (unit : Plain i .badUnit)
    (range : Plain i .payloadRange) (named : i.mnemonic ∈ raisedBy .transport) (noData : okDataLength s i = 0) :
    Does i (Exceptions.payloadTaken count s) (windowWrite base u r count s) := by
  refine does_withPayload fun p length => does_withDev unit fun d _ => does_orRaise (fun st raised => ?_) fun fits => ?_
  · obtain ⟨-, ⟨⟩⟩ := Option.ite_none_right_eq_some.mp raised
    exact range
  · have window : ¬ (windowSize - 1 < r ∨ windowSize < r + count) := fun large => by simp [large] at fits
    have size : 1 ≤ (frameWindow base r p).length ∧ (frameWindow base r p).length ≤ 12 := by
      rw [frameWindow, List.length_cons, length]
      simp only [windowSize] at window
      omega
    exact does_plainWrite size named ((okDataLength_payloadTaken count s i).trans noData)

theorem does_drvModcfg (u : Nat) (mask value : Byte) (s : State) :
    Does (.drvModcfg u mask value) s (execDrvModcfg u mask value s) := by
  refine does_withDev plain fun d unit => does_drvWrite (size_pair _ _) listed ?_
  exact .sent d _ { pick s.drv d with cfg := masked (pick s.drv d).cfg mask value } (size_pair _ _) rfl
    (fun _ => ⟨rfl, unit⟩) (absurd rfl)

theorem does_drvModlit (u : Nat) (mask value : Byte) (s : State) :
    Does (.drvModlit u mask value) s (execDrvModlit u mask value s) := by
  refine does_withDev plain fun d unit => does_drvWrite (size_pair _ _) listed ?_
  exact .sent d _ { pick s.drv d with lit := masked (pick s.drv d).lit mask value } (size_pair _ _) rfl (absurd rfl)
    (fun _ => ⟨rfl, unit⟩)

/-- A frame with the bytes a matrix target pulls. -/
theorem size_frameWindow_pull (base : Byte) (s : State) (c : List Stage) :
    1 ≤ (frameWindow base 0 (pull s c)).length ∧ (frameWindow base 0 (pull s c)).length ≤ 12 := by
  simp [frameWindow]

theorem does_tgtRender (u slot : Nat) (half : Half8x8) (s : State) :
    Does (.tgtRender u half slot) s (execTgtRender u half slot s) :=
  does_withDev plain fun _ _ => does_withSlot plain <|
    does_checkSupported plain fun _ =>
      does_plainWrite (size_frameWindow_pull _ s _) listed rfl

theorem does_scrRender (s : State) : Does .scrRender s (execScrRender s) := by
  intro t h
  rw [settle_next _ _ _ h]
  exact .rendered rfl

theorem does_vwRead (slot : Nat) (row start stop : Int) (s : State) :
    Does (.vwRead slot row start stop) s (execVwRead slot row start stop s) := by
  refine does_withSlot plain (does_checkSupported plain fun sup => does_finish ?_)
  rw [Views.fwd_eq_point sup, List.length_map, intRange_length]
  rfl

theorem does_vwReadrev (slot : Nat) (row start stop : Int) (s : State) :
    Does (.vwReadrev slot row start stop) s (execVwReadrev slot row start stop s) := by
  refine does_withSlot plain (does_checkSupported plain fun sup => does_finish ?_)
  rw [Views.rev_eq_point sup, List.length_map, List.length_reverse, intRange_length]
  rfl

theorem does_cvRow (y : Int) (s : State) : Does (.cvRow y) s (execCvRow y s) := by
  refine does_checkRow plain fun _ => does_finish ?_
  rw [State.readRow, List.length_map, intRange_length, Int.sub_zero]
  rfl

/-! ### Every command -/

/-- Each command's meaning, from the state with the command's payload taken, has one of the effects. -/
theorem exec_does (i : Instr) (s : State) : Does i (Exceptions.payloadTaken (commandPayload s i) s) (exec i s) := by
  cases i
  case cvNew w h => exact does_cvNew w h s
  case cvWidth => exact does_finish rfl
  case cvHeight => exact does_finish rfl
  case cvCapw => exact does_finish rfl
  case cvCaph => exact does_finish rfl
  case cvRow y => exact does_cvRow y s
  case cvRoww y => exact does_cvRoww y s
  case cvByte => exact does_checkCol plain plain fun _ _ => does_finish rfl
  case cvBytew =>
    exact does_checkCol plain plain fun column row =>
      does_next (effect_memWrite s.draws listed rfl row column)
  case cvBit => exact does_checkCol plain plain fun _ _ => does_finish rfl
  case cvBitw =>
    exact does_checkCol plain plain fun column row =>
      does_writePixel s.draws listed rfl row column
  case cvAlpha => exact does_finish rfl
  case cvAlphaw present thr => exact does_next (.thresholdSet present thr rfl)
  case cvDraw x y alpha => exact does_cvDraw x y alpha s
  case vwClear slot => exact does_withSlot plain (does_next (.cleared slot rfl))
  case vwFlip slot => exact does_stageCommand slot .flip s
  case vwOffset slot dx dy => exact does_stageCommand slot (.offset dx dy) s
  case vwRot90 slot => exact does_stageCommand slot .rot90 s
  case vwBitslen => exact does_withSlot plain (does_finish rfl)
  case vwRead slot row start stop => exact does_vwRead slot row start stop s
  case vwReadrev slot row start stop => exact does_vwReadrev slot row start stop s
  case bitidx => exact does_finish rfl
  case drvPwm =>
    exact does_withDev plain fun _ _ => does_plainWrite (size_pair _ _) listed rfl
  case drvM1rows u r count =>
    exact does_windowWrite _ u r count plain plain listed rfl
  case drvM2rows u r count =>
    exact does_windowWrite _ u r count plain plain listed rfl
  case drvUpdate =>
    exact does_withDev plain fun _ _ => does_plainWrite (size_pair _ _) listed rfl
  case drvReset =>
    exact does_withDev plain fun _ _ => does_plainWrite (size_pair _ _) listed rfl
  case drvModcfg u mask value => exact does_drvModcfg u mask value s
  case drvModlit u mask value => exact does_drvModlit u mask value s
  case drvCfg => exact does_withDev plain fun _ _ => does_finish rfl
  case drvLit => exact does_withDev plain fun _ _ => does_finish rfl
  case tgtRender u half slot => exact does_tgtRender u slot half s
  case scrRender => exact does_scrRender s
  case scrReinit => exact does_finish rfl

/-- A command that answered a next state had its payload and did one of the effects. -/
theorem effect_of_exec_next {i : Instr} {s t : State} (h : exec i s = .next t) :
    Effect i (Exceptions.payloadTaken (commandPayload s i) s) t := exec_does i s t h

end Sys2Proof.Effects

/-! What every command keeps and counts (10_state.md R23 to R38; 30_encoding.md R72, R74; 60_exceptions.md R211 to R214): each fact
is read off the effects a command can have. -/

namespace Sys2Proof.Commands

open Sys2Proof.Machine Sys2Proof.Effects

/-! ### What SCR.RENDER leaves alone -/

/-- SCR.RENDER touches only the drivers, their flags and the bus (43_target_screen.md R195). -/
theorem rendered_unchanged (s : State) :
    Screen.rendered s = { s with
      drv := (Screen.rendered s).drv, needsReinit := (Screen.rendered s).needsReinit
      busOut := (Screen.rendered s).busOut, busIn := (Screen.rendered s).busIn, draws := (Screen.rendered s).draws } := by
  obtain ⟨_, _, -, -, -, unchanged⟩ := Screen.rendered_traces s
  exact unchanged

@[simp] theorem rendered_par (s : State) : (Screen.rendered s).par = s.par := by rw [rendered_unchanged]
@[simp] theorem rendered_cv (s : State) : (Screen.rendered s).cv = s.cv := by rw [rendered_unchanged]
@[simp] theorem rendered_width (s : State) : (Screen.rendered s).width = s.width := by rw [rendered_unchanged]
@[simp] theorem rendered_height (s : State) : (Screen.rendered s).height = s.height := by rw [rendered_unchanged]
@[simp] theorem rendered_alphaSet (s : State) : (Screen.rendered s).alphaSet = s.alphaSet := by rw [rendered_unchanged]
@[simp] theorem rendered_alphaThr (s : State) : (Screen.rendered s).alphaThr = s.alphaThr := by rw [rendered_unchanged]
@[simp] theorem rendered_slots (s : State) : (Screen.rendered s).slots = s.slots := by rw [rendered_unchanged]
@[simp] theorem rendered_n (s : State) : (Screen.rendered s).n = s.n := by rw [rendered_unchanged]
@[simp] theorem rendered_payIn (s : State) : (Screen.rendered s).payIn = s.payIn := by rw [rendered_unchanged]
@[simp] theorem rendered_hostIn (s : State) : (Screen.rendered s).hostIn = s.hostIn := by rw [rendered_unchanged]
@[simp] theorem rendered_busStall (s : State) : (Screen.rendered s).busStall = s.busStall := by rw [rendered_unchanged]

/-! ### What no command writes, and the index -/

section
variable {i : Instr} {s t : State}

theorem effect_par (h : Effect i s t) : t.par = s.par := by cases h <;> simp
theorem effect_hostIn (h : Effect i s t) : t.hostIn = s.hostIn := by cases h <;> simp
theorem effect_busStall (h : Effect i s t) : t.busStall = s.busStall := by cases h <;> simp
theorem effect_payIn (h : Effect i s t) : t.payIn = s.payIn := by cases h <;> simp
theorem effect_n (h : Effect i s t) : t.n = s.n + 1 := by cases h <;> simp

theorem effect_response (h : Effect i s t) : ∃ r, t.response = some r := by cases h <;> exact ⟨_, rfl⟩

/-! ### The writers of each register -/

theorem writer_of_cv (h : Effect i s t) (changed : t.cv ≠ s.cv) :
    i.mnemonic ∈ ["CV.NEW", "CV.ROWW", "CV.BYTEW", "CV.BITW", "CV.DRAW"] := by
  cases h
  case created w h command width height => exact command ▸ listed
  case stored y j p draws writer noData row first last => exact List.mem_cons_of_mem _ writer
  all_goals simp at changed

theorem writer_of_geometry (h : Effect i s t) (changed : t.width ≠ s.width ∨ t.height ≠ s.height) :
    i.mnemonic ∈ ["CV.NEW"] := by
  cases h
  case created w h command width height => exact command ▸ listed
  all_goals simp at changed

theorem writer_of_alpha (h : Effect i s t) (changed : t.alphaSet ≠ s.alphaSet ∨ t.alphaThr ≠ s.alphaThr) :
    i.mnemonic ∈ ["CV.NEW", "CV.ALPHAW"] := by
  cases h
  case created w h command width height => exact command ▸ listed
  case thresholdSet present thr command => exact command ▸ listed
  all_goals simp at changed

theorem viewSlotOf_stageCommand (slot : Nat) (g : Stage) : viewSlotOf (stageCommand slot g) = some slot := by
  cases g <;> rfl

theorem writer_of_slots (h : Effect i s t) (changed : t.slots ≠ s.slots) :
    i.mnemonic ∈ ["VW.CLEAR", "VW.FLIP", "VW.OFFSET", "VW.ROT90"] := by
  cases h
  case cleared slot command => exact command ▸ listed
  case appended slot g command room => subst command; cases g <;> exact listed
  all_goals simp at changed

/-- A chain that changed is the chain of the slot the command names. -/
theorem slot_of_chain (h : Effect i s t) {k : Nat} (changed : t.chain k ≠ s.chain k) : viewSlotOf i = some k := by
  cases h
  case cleared slot command =>
    obtain rfl : k = slot := by_contra fun other => changed (Views.chain_setChain_other [] other)
    exact command ▸ rfl
  case appended slot g command room =>
    obtain rfl : k = slot := by_contra fun other => changed (Views.chain_setChain_other _ other)
    exact command ▸ viewSlotOf_stageCommand k g
  case rendered command => exact absurd (by simp [State.chain]) changed
  all_goals exact absurd rfl changed

theorem effect_slots_length (h : Effect i s t) : t.slots.length = s.slots.length := by cases h <;> simp

theorem writer_of_cfg (h : Effect i s t) {d : Dev} (changed : (pick t.drv d).cfg ≠ (pick s.drv d).cfg) :
    i = .scrRender ∨ (i.mnemonic = "DRV.MODCFG" ∧ (driverUnitOf i).bind devOf = some d) := by
  cases h
  case rendered command => exact .inl command
  case sent e frame cache size noData cfg lit =>
    obtain rfl : d = e := by_contra fun other => changed (by simp [pick_put_other _ _ _ _ other])
    exact .inr (cfg (by simpa using changed))
  all_goals exact absurd rfl changed

theorem writer_of_lit (h : Effect i s t) {d : Dev} (changed : (pick t.drv d).lit ≠ (pick s.drv d).lit) :
    i = .scrRender ∨ (i.mnemonic = "DRV.MODLIT" ∧ (driverUnitOf i).bind devOf = some d) := by
  cases h
  case rendered command => exact .inl command
  case sent e frame cache size noData cfg lit =>
    obtain rfl : d = e := by_contra fun other => changed (by simp [pick_put_other _ _ _ _ other])
    exact .inr (lit (by simpa using changed))
  all_goals exact absurd rfl changed

theorem writer_of_needsReinit (h : Effect i s t) (changed : t.needsReinit ≠ s.needsReinit) :
    i.mnemonic ∈ ["SCR.RENDER"] := by
  cases h
  case rendered command => exact command ▸ listed
  all_goals exact absurd rfl changed

/-! ### Status and data -/

theorem mnemonic_mem_raisedBy_ok (i : Instr) : i.mnemonic ∈ raisedBy .ok := by cases i <;> exact listed

theorem effect_status (h : Effect i s t) {r : Response} (response : t.response = some r) :
    i.mnemonic ∈ raisedBy r.status ∧ (r.status ≠ .ok → r.status ≠ .transport → r.data = []) ∧
      (r.status = .transport → ∃ e, r.data = [e]) := by
  cases h <;> obtain rfl := Option.some.inj response
  case raised c named notOk notTransport => exact ⟨named, fun _ _ => rfl, fun transport => absurd transport notTransport⟩
  case failed d frame e size named => exact ⟨named, fun _ other => absurd rfl other, fun _ => ⟨e, rfl⟩⟩
  all_goals exact ⟨mnemonic_mem_raisedBy_ok i, fun failed => absurd rfl failed, nofun⟩

theorem effect_data_length (h : Effect i s t) {data : List Byte}
    (response : t.response = some { status := .ok, data := data }) : data.length = okDataLength s i := by
  cases h <;> cases response
  case answered length => exact length
  case raised named notOk notTransport => exact absurd rfl notOk
  case created w h command width height => exact command ▸ rfl
  case stored y j p draws writer noData row first last => exact noData.symm
  case thresholdSet present thr command => exact command ▸ rfl
  case cleared slot command => exact command ▸ rfl
  case appended slot g command room => subst command; cases g <;> rfl
  case sent d frame cache size noData cfg lit => exact noData.symm
  case rendered command => exact command ▸ rfl

end

/-! ### Bus writes (20_memory.md R56, R65) -/

/-- The writes `ws` are frames of 1 to 12 bytes to the two devices, and got the next answers in order. -/
def WritesInOrder (s t : State) (ws : List BusWrite) : Prop :=
  t.busOut = s.busOut ++ ws ∧
  (∀ w ∈ ws, 1 ≤ w.frame.length ∧ w.frame.length ≤ 12 ∧
    (w.addr = s.par.devAddr.d0 ∨ w.addr = s.par.devAddr.d1)) ∧
  t.busIn = s.busIn.drop ws.length ∧ (ws.map BusWrite.answer).take s.busIn.length = s.busIn.take ws.length

/-- From `s` to `t` the parameters stayed and some writes were made in order. -/
def BusRun (s t : State) : Prop := t.par = s.par ∧ ∃ ws, WritesInOrder s t ws

theorem busRun_of_same {s t : State} (par : t.par = s.par) (out : t.busOut = s.busOut) (answers : t.busIn = s.busIn) :
    BusRun s t := ⟨par, [], by simp [WritesInOrder, out, answers]⟩

theorem devAddr_cases (s : State) (d : Dev) :
    pick s.par.devAddr d = s.par.devAddr.d0 ∨ pick s.par.devAddr d = s.par.devAddr.d1 := by
  cases d
  · exact .inl rfl
  · exact .inr rfl

theorem nextAnswer_take (s : State) : [s.nextAnswer].take s.busIn.length = s.busIn.take 1 := by
  cases answers : s.busIn with
  | nil => rfl
  | cons a rest => simp [nextAnswer_cons s a rest answers]

theorem busRun_busWrite (s : State) (d : Dev) {frame : List Byte} (size : 1 ≤ frame.length ∧ frame.length ≤ 12) :
    BusRun s (s.busWrite d frame) := by
  refine ⟨rfl, [Screen.written s d frame], rfl, ?_, List.drop_one.symm, nextAnswer_take s⟩
  intro w hw
  obtain rfl := List.mem_singleton.mp hw
  exact ⟨size.1, size.2, devAddr_cases s d⟩

theorem BusRun.trans {s t u : State} (first : BusRun s t) (second : BusRun t u) : BusRun s u := by
  obtain ⟨par, ws, out, frames, answers, order⟩ := first
  obtain ⟨par', ws', out', frames', answers', order'⟩ := second
  refine ⟨par'.trans par, ws ++ ws', by rw [out', out, List.append_assoc], ?_, ?_, ?_⟩
  · intro w hw
    exact (List.mem_append.mp hw).elim (frames w) (par ▸ frames' w)
  · rw [answers', answers, List.drop_drop, List.length_append]
  · rw [answers, List.length_drop] at order'
    rw [List.map_append, List.take_append, order, List.length_map, order', List.length_append, List.take_add]

theorem busRun_reinitConfig (d : Dev) (s : State) : BusRun s (reinitConfig d s).2 := by
  have sent : BusRun s (s.busWrite d (frameConfig (reinitCfg s d))) := busRun_busWrite s d (size_pair _ _)
  unfold reinitConfig
  dsimp only
  split
  · exact sent
  · exact sent

theorem busRun_reinitLighting (d : Dev) (s : State) : BusRun s (reinitLighting d s).2 := by
  have sent : BusRun s (s.busWrite d (frameLighting (reinitLit s d))) := busRun_busWrite s d (size_pair _ _)
  unfold reinitLighting
  dsimp only
  split
  · exact sent
  · exact BusRun.trans (t := State.setLit (s.busWrite d _) d _) sent (busRun_reinitConfig d _)

theorem busRun_reinit (d : Dev) (s : State) : BusRun s (reinit d s).2 := by
  have sent : BusRun s (s.busWrite d frameReset) := busRun_busWrite s d (size_pair _ _)
  unfold reinit
  dsimp only
  split
  · exact sent
  · exact sent.trans (busRun_reinitLighting d _)

theorem busRun_renderFrame (d : Dev) (s : State) : BusRun s (renderFrame d s) := by
  have primary : BusRun s (s.busWrite d (primFrame s d)) := busRun_busWrite s d (size_frameWindow_pull _ _ _)
  have secondary (t : State) : BusRun t (t.busWrite d (secFrame t d)) :=
    busRun_busWrite t d (size_frameWindow_pull _ _ _)
  have update (t : State) : BusRun t (t.busWrite d frameUpdate) := busRun_busWrite t d (size_pair _ _)
  exact ((primary.trans (secondary _)).trans (update _) :)

theorem busRun_renderDev (d : Dev) (s : State) : BusRun s (renderDev d s) := by
  unfold renderDev
  dsimp only
  split
  · split
    · exact BusRun.trans (t := State.setReinit _ d false) (busRun_reinit d s) (busRun_renderFrame d _)
    · exact busRun_reinit d s
  · exact busRun_renderFrame d s

theorem busRun_of_effect {i : Instr} {s t : State} (h : Effect i s t) : BusRun s t := by
  cases h
  case sent d frame cache size noData cfg lit => exact busRun_busWrite s d size
  case failed d frame e size named => exact busRun_busWrite s d size
  case rendered command => exact (busRun_renderDev .d0 s).trans (busRun_renderDev .d1 _)
  all_goals exact busRun_of_same rfl rfl rfl

theorem busRun_of_exec {i : Instr} {s t : State} (h : exec i s = .next t) : BusRun s t :=
  (busRun_of_effect (effect_of_exec_next h) :)

/-! ### Every step -/

/-- What a step that answers a next state was: the reset input, a command, or an illegal word. -/
theorem step_next_cases {s t : State} (h : step s = .next t) :
    (∃ rest, t = s.resetEvent rest) ∨
    (∃ w i p rest, decode w = .ok i ∧ exec i (s.accept p rest) = .next t) ∨
    (∃ w p rest, t = State.respond (Exceptions.payloadTaken (payloadLen w s) (s.accept p rest)) .illegal []) := by
  unfold step at h
  split at h
  · cases h
  · next rest _ => exact .inl ⟨rest, (Host.Outcome.next.inj h).symm⟩
  · next w p rest _ =>
    split at h
    · next i decoded => exact .inr (.inl ⟨w, i, p, rest, decoded, h⟩)
    · obtain ⟨-, raised⟩ := withPayload_next _ _ _ _ h
      exact .inr (.inr ⟨w, p, rest, (raise_next _ _ _).mp raised⟩)

/-! ### The obligations -/

/-- Settles O12: every effect keeps the parameters and only adds to the trace; the reset input and an illegal word touch
neither. -/
theorem hardwiredRegistersNeverChange : Obligations.HardwiredRegistersNeverChange := by
  intro s t h
  obtain ⟨rest, rfl⟩ | ⟨w, i, p, rest, -, executed⟩ | ⟨w, p, rest, rfl⟩ := step_next_cases h
  · exact ⟨rfl, [], List.append_nil _⟩
  · obtain ⟨par, ws, out, -⟩ := busRun_of_exec executed
    exact ⟨par, ws, out.symm⟩
  · exact ⟨rfl, [], List.append_nil _⟩

/-- Settles O13: each clause reads the effects that change its register. -/
theorem eachRegisterHasItsOwnWriters : Obligations.EachRegisterHasItsOwnWriters := by
  intro i s t h
  have effect := effect_of_exec_next h
  exact ⟨(writer_of_cv effect :), (writer_of_geometry effect :), (writer_of_alpha effect :), (writer_of_slots effect :),
    fun _ => (slot_of_chain effect :), (effect_slots_length effect :), fun _ => (writer_of_cfg effect :),
    fun _ => (writer_of_lit effect :), (writer_of_needsReinit effect :), (effect_par effect :),
    (effect_hostIn effect :), (effect_busStall effect :)⟩

/-- Settles O15: every effect counts and responds once, from the state with the payload taken; a command without its payload
waits. -/
theorem everyCommandAnswersOnceAndTakesItsPayload : Obligations.EveryCommandAnswersOnceAndTakesItsPayload := by
  intro i s t h
  have effect := effect_of_exec_next h
  have ready : commandPayload s i ≤ s.payIn.length := by
    by_contra short
    rw [Exceptions.exec_of_short_payload (Nat.lt_of_not_le short)] at h
    cases h
  exact ⟨(effect_n effect :), (effect_response effect :), ready, (effect_payIn effect :)⟩

/-- Settles O16: the status of each effect, ILLEGAL of O6, and the codes by evaluation. -/
theorem statusesComeOnlyFromTheirCommands : Obligations.StatusesComeOnlyFromTheirCommands := by
  refine ⟨fun i s t r h response => effect_status (effect_of_exec_next h) response, ?_, rfl⟩
  intro s t w p rest host none h
  obtain ⟨e, decoded⟩ := Encoding.decode_error_of_spellsNone none
  rw [Encoding.step_of_decode_error host decoded] at h
  obtain ⟨-, raised⟩ := withPayload_next _ _ _ _ h
  rw [(raise_next _ _ _).mp raised, respond_response]

/-- Settles O18: the data of each effect that ends OK. -/
theorem dataLengthOfAFinishedCommand : Obligations.DataLengthOfAFinishedCommand := by
  intro i s t data h response
  rw [effect_data_length (effect_of_exec_next h) response, okDataLength_payloadTaken]

/-- Settles O19: one write at a time, a frame to a device's address with the next answer, and runs of such writes compose. -/
theorem busWritesAreFramesAnsweredInOrder : Obligations.BusWritesAreFramesAnsweredInOrder := by
  intro i s t h
  obtain ⟨-, ws, inOrder⟩ := busRun_of_exec h
  exact ⟨ws, inOrder⟩

end Sys2Proof.Commands

/-! The invariant of the registers and the store (10_state.md R38; 20_memory.md R50 to R53): store addresses, the live region,
reset, and every step; and with it the single-byte and single-pixel accesses. -/

namespace Sys2Proof.Invariant

open Sys2Proof.Machine Sys2Proof.Effects

/-! ### Store addresses (10_state.md R24, 20_memory.md R50) -/

/-- A live row fits the row of the store. -/
theorem rowLen_le_stride {s : State} (legal : s.par.legal) (geometry : s.geometryOk) : s.rowLen ≤ s.stride := by
  obtain ⟨⟨whole, -, -⟩, -⟩ := legal
  obtain ⟨width, -⟩ := geometry
  simp only [State.rowLen, State.stride, ceil8]
  omega

theorem addr_eq (s : State) {y j : Int} (hy : 0 ≤ y) (hj : 0 ≤ j) : s.addr y j = s.stride * y.toNat + j.toNat := by
  obtain ⟨a, rfl⟩ := Int.eq_ofNat_of_zero_le hy
  obtain ⟨b, rfl⟩ := Int.eq_ofNat_of_zero_le hj
  simp only [State.addr, Int.toNat_natCast]
  rw [Nat.mul_comm]
  exact_mod_cast Int.toNat_natCast (a * s.stride + b)

theorem addr_div {s : State} {y j : Int} (hy : 0 ≤ y) (hj : 0 ≤ j) (column : j < (s.stride : Int)) :
    s.addr y j / s.stride = y.toNat := by
  rw [addr_eq s hy hj, Nat.mul_add_div (by omega), Nat.div_eq_of_lt (by omega), Nat.add_zero]

theorem addr_mod {s : State} {y j : Int} (hy : 0 ≤ y) (hj : 0 ≤ j) (column : j < (s.stride : Int)) :
    s.addr y j % s.stride = j.toNat := by
  rw [addr_eq s hy hj, Nat.mul_add_mod, Nat.mod_eq_of_lt (by omega)]

/-- Two positions of the store share no address. -/
theorem addr_injective {s : State} {y j y' j' : Int} (hy : 0 ≤ y) (hj : 0 ≤ j) (column : j < (s.stride : Int))
    (hy' : 0 ≤ y') (hj' : 0 ≤ j') (column' : j' < (s.stride : Int)) (same : s.addr y j = s.addr y' j') :
    y = y' ∧ j = j' := by
  have row := addr_div hy hj column
  have byte := addr_mod hy hj column
  rw [same, addr_div hy' hj' column'] at row
  rw [same, addr_mod hy' hj' column'] at byte
  omega

/-- The address of a position of the store is live exactly when its row and its byte column are. -/
theorem liveAddr_addr_iff {s : State} {y j : Int} (hy : 0 ≤ y) (hj : 0 ≤ j) (column : j < (s.stride : Int)) :
    s.liveAddr (s.addr y j) ↔ s.liveRow y ∧ s.liveByte j := by
  rw [State.liveAddr, addr_div hy hj column, addr_mod hy hj column]
  omega

/-! ### What the store lists -/

theorem read_of_unlisted {m : Memory} {a : Nat} (h : ∀ c ∈ m, c.1 ≠ a) : m.read a = Config.unlistedByte := by
  induction m with
  | nil => rfl
  | cons c rest ih =>
    obtain ⟨k, v⟩ := c
    rw [Memory.read, if_neg (h (k, v) List.mem_cons_self)]
    exact ih fun c hc => h c (List.mem_cons_of_mem _ hc)

/-- A run of byte writes lists nothing but its own addresses and what was listed. -/
theorem mem_writeBytes {s : State} {y j : Int} {p : List Byte} {c : Host.Cell} (h : c ∈ (s.writeBytes y j p).cv) :
    c ∈ s.cv ∨ ∃ k < p.length, c.1 = s.addr y (j + (k : Int)) := by
  induction p generalizing s j with
  | nil => exact .inl h
  | cons v rest ih =>
    obtain written | ⟨k, inside, address⟩ := ih h
    · obtain rfl | listed := Memory.mem_write s.cv (s.addr y j) v c written
      · exact .inr ⟨0, Nat.succ_pos _, congrArg (s.addr y) (Int.add_zero j).symm⟩
      · exact .inl listed
    · refine .inr ⟨k + 1, Nat.succ_lt_succ inside, ?_⟩
      rw [address, addr_memWrite]
      congr 1
      omega

/-- Bytes written within a live row keep the store canonical and zero outside the live region. -/
theorem storeOk_writeBytes {s : State} {y j : Int} {p : List Byte} (fits : s.rowLen ≤ s.stride) (store : s.storeOk)
    (row : s.liveRow y) (first : 0 ≤ j) (last : j + p.length ≤ s.rowLen) :
    (s.writeBytes y j p).cv.wf = true ∧ ∀ c ∈ (s.writeBytes y j p).cv, s.liveAddr c.1 := by
  obtain ⟨canonical, live⟩ := store
  refine ⟨writeBytes_wf s y j p canonical, fun c hc => ?_⟩
  obtain listed | ⟨k, inside, address⟩ := mem_writeBytes hc
  · exact live c listed
  · rw [address]
    exact (liveAddr_addr_iff row.1 (by omega) (by omega)).mpr ⟨row, by omega, by omega⟩

/-! ### Two pixels (20_memory.md R52) -/

/-- A live pixel other than the one written keeps its bit: another bit of the same byte, or a byte with another address. -/
theorem readPixel_writePixel_other {s : State} {x y x' y' : Int} (v : Bool) (inv : s.Inv) (hx : s.livePixel x)
    (hy : s.liveRow y) (hx' : s.livePixel x') (hy' : s.liveRow y') (other : (x', y') ≠ (x, y)) :
    (s.writePixel x y v).readPixel x' y' = s.readPixel x' y' := by
  obtain ⟨legal, geometry, -, -, canonical, -⟩ := inv
  obtain ⟨-, otherBits, otherAddresses⟩ := Canvas.pixelWritten_writePixel x y v canonical
  rw [Canvas.readPixel_eq_getLsbD, Canvas.readPixel_eq_getLsbD]
  by_cases sameByte : y' = y ∧ x' / 8 = x / 8
  · obtain ⟨rfl, sameColumn⟩ := sameByte
    have otherColumn : x' ≠ x := fun h => other (by rw [h])
    rw [sameColumn, otherBits _ (by omega) (by omega)]
  · have fits := rowLen_le_stride legal geometry
    have byte := Canvas.liveByte_of_livePixel hx
    have byte' := Canvas.liveByte_of_livePixel hx'
    have apart : s.addr y' (x' / 8) ≠ s.addr y (x / 8) := fun same =>
      sameByte (addr_injective hy'.1 byte'.1 (by omega) hy.1 byte.1 (by omega) same)
    rw [show (s.writePixel x y v).memRead y' (x' / 8) = s.memRead y' (x' / 8) from otherAddresses _ apart]

/-! ### The slot file (10_state.md R30, R31) -/

/-- Replacing a chain by one within the bounds keeps the slot file within them. -/
theorem slotsOk_setChain {s : State} {slot : Nat} {c : List Stage} (slots : s.slotsOk)
    (depth : c.length ≤ s.par.viewDepth) (stages : ∀ g ∈ c, g.ok = true) : (s.setChain slot c).slotsOk := by
  obtain ⟨count, each⟩ := slots
  refine ⟨by simpa using count, fun c' hc' => ?_⟩
  obtain old | rfl := List.mem_or_eq_of_mem_set hc'
  · exact each c' old
  · exact ⟨depth, stages⟩

/-- The stages of every chain, named by a slot or not, are legal. -/
theorem stages_chain {s : State} (slots : s.slotsOk) (slot : Nat) : ∀ g ∈ s.chain slot, g.ok = true := by
  intro g hg
  by_cases named : slot < s.slots.length
  · rw [State.chain, List.getD_eq_getElem _ _ named] at hg
    exact (slots.2 _ (List.getElem_mem named)).2 g hg
  · rw [State.chain, List.getD_eq_default _ _ (Nat.not_lt.mp named)] at hg
    cases hg

theorem stage_ok_of_wellFormed {slot : Nat} {g : Stage} (h : WellFormed (stageCommand slot g) = true) : g.ok = true := by
  cases g with
  | flip => rfl
  | rot90 => rfl
  | offset dx dy =>
    simp only [stageCommand, WellFormed, decide_eq_true_eq] at h
    exact decide_eq_true h.2

/-- Every slot of a file of empty chains is empty, and so is every slot beyond the file. -/
theorem getD_replicate_nil (n k : Nat) : (List.replicate n ([] : List Stage)).getD k [] = [] := by
  rw [List.getD_eq_getElem?_getD, List.getElem?_replicate]
  split
  · rfl
  · rfl

theorem pick_pair {α : Type} (a : α) (d : Dev) : pick { d0 := a, d1 := a } d = a := by
  cases d
  · rfl
  · rfl

/-! ### Reset and every step -/

theorem inv_resetWith {p : Params} (legal : p.legal) : (State.resetWith p).Inv := by
  refine ⟨legal, ⟨Nat.zero_le _, Nat.zero_le _⟩, fun _ => rfl, ⟨List.length_replicate, fun c hc => ?_⟩, rfl, nofun⟩
  obtain rfl := List.eq_of_mem_replicate hc
  exact ⟨Nat.zero_le _, nofun⟩

theorem inv_of_effect {i : Instr} {s t : State} (h : Effect i s t) (wellFormed : WellFormed i = true) (inv : s.Inv) :
    t.Inv := by
  obtain ⟨legal, geometry, alpha, slots, store⟩ := inv
  cases h
  case created w h command width height =>
    exact ⟨legal, ⟨(Nat.mod_le _ _).trans width, (Nat.mod_le _ _).trans height⟩, fun _ => rfl, slots, rfl, nofun⟩
  case stored y j p draws writer noData row first last =>
    exact ⟨legal, geometry, alpha, slots, storeOk_writeBytes (rowLen_le_stride legal geometry) store row first last⟩
  case thresholdSet present thr command =>
    exact ⟨legal, geometry, fun absent => if_neg (ne_true_of_eq_false absent), slots, store⟩
  case cleared slot command =>
    exact ⟨legal, geometry, alpha, slotsOk_setChain slots (Nat.zero_le _) nofun, store⟩
  case appended slot g command room =>
    subst command
    refine ⟨legal, geometry, alpha, slotsOk_setChain slots ?_ fun g' hg' => ?_, store⟩
    · rw [List.length_append]
      exact room
    · obtain old | new := List.mem_append.mp hg'
      · exact stages_chain slots slot g' old
      · exact List.mem_singleton.mp new ▸ stage_ok_of_wellFormed wellFormed
  case rendered command =>
    rw [Commands.rendered_unchanged]
    exact ⟨legal, geometry, alpha, slots, store⟩
  all_goals exact ⟨legal, geometry, alpha, slots, store⟩

/-! ### The obligations -/

/-- Settles O11: each effect of a decoded command, which is well formed, keeps every clause; so do the reset input and an
illegal word. -/
theorem everyStepKeepsTheInvariant : Obligations.EveryStepKeepsTheInvariant := by
  intro s t inv h
  obtain ⟨rest, rfl⟩ | ⟨w, i, p, rest, decoded, executed⟩ | ⟨w, p, rest, rfl⟩ := Commands.step_next_cases h
  · exact (inv_resetWith inv.1 :)
  · exact inv_of_effect (effect_of_exec_next executed) (RoundTrip.encodeOfDecode w i decoded).1 inv
  · exact inv

/-- Settles O33: a listed address is live, an unlisted one reads 0x00, and row and column are quotient and remainder of the
address. -/
theorem storeIsZeroOutsideTheLiveRegion : Obligations.StoreIsZeroOutsideTheLiveRegion := by
  intro s y j y' j' inv hy hj column
  obtain ⟨-, -, -, -, -, live⟩ := inv
  refine ⟨fun outside => read_of_unlisted fun c listed address => outside ?_, fun hy' hj' column' => ?_⟩
  · exact (liveAddr_addr_iff hy hj column).mp (address ▸ live c listed)
  · exact addr_injective hy hj column hy' hj' column'

/-- Settles O26: the byte is written at its own address. -/
theorem cvBytewResult : Obligations.CvBytewResult := by
  intro s bx y v canonical column row
  have answers : exec (.cvBytew bx y v) s = .next ((s.memWrite y bx v).respond .ok []) := by
    rw [Canvas.exec_cvBytew, (checkCol_none s bx s.rowLen y).mpr ⟨column, row⟩, orRaise_none, finish]
  exact ⟨_, answers, Memory.read_write_same s.cv _ v canonical,
    fun a other => Memory.read_write_other s.cv _ a v canonical other.symm, rfl⟩

/-- Settles O27: the pixel's bit of its byte is written. -/
theorem cvBitwResult : Obligations.CvBitwResult := by
  intro s x y v canonical column row
  exact ⟨_, Canvas.exec_cvBitw_of_live v column row, Canvas.pixelWritten_writePixel x y v canonical, rfl⟩

/-- Settles O32: reading the second pixel before and after the write of the first. -/
theorem pixelWritesAreIndependent : Obligations.PixelWritesAreIndependent := by
  intro s x y x' y' v inv hx hy hx' hy' other
  refine ⟨_, _, _, Canvas.exec_cvBitw_of_live v hx hy, Canvas.exec_cvBit_of_live hx' hy',
    Canvas.exec_cvBit_of_live hx' hy', ?_⟩
  rw [respond_response, respond_response, ← readPixel_writePixel_other v inv hx hy hx' hy' other]
  rfl

/-- Settles O9: the values of the reset event, and of the state after power-on; an empty store reads 0x00, and every slot of
a file of empty chains, or beyond it, is empty. -/
theorem resetGivesEveryRegisterItsValue : Obligations.ResetGivesEveryRegisterItsValue := by
  refine ⟨?_, ?_⟩
  · intro s rest host
    have resets : step s = .next (s.resetEvent rest) := by simp [step, host]
    exact ⟨_, resets, fun _ _ => rfl, rfl, rfl, rfl, rfl, rfl, List.length_replicate, getD_replicate_nil _, pick_pair _, pick_pair _,
      rfl, rfl, rfl, rfl, rfl⟩
  · exact ⟨fun _ _ => rfl, rfl, rfl, rfl, rfl, rfl, List.length_replicate, getD_replicate_nil _, pick_pair _, pick_pair _,
      rfl, rfl, rfl⟩

/-- Settles O10: every clause holds of the empty store and the empty chains. -/
theorem resetMeetsTheInvariant : Obligations.ResetMeetsTheInvariant :=
  ⟨fun _ legal => inv_resetWith legal, by decide⟩

/-- Settles O25: the byte, and the pixel as its bit of the byte. -/
theorem byteAndPixelReads : Obligations.ByteAndPixelReads := by
  intro s x y row
  refine ⟨fun column => Canvas.exec_cvByte_of_live column row, fun column => ?_⟩
  rw [Canvas.exec_cvBit_of_live column row, Canvas.readPixel_eq_getLsbD]

end Sys2Proof.Invariant

/-! Reads through chains (41_views.md R150 to R154), the slot and device operands that name none (60_exceptions.md R213), and what
the two halves of the Screen show (43_target_screen.md R197). -/

namespace Sys2Proof.Chains

open Sys2Proof.Machine

/-! ### VW.READ and VW.READREV -/

theorem exec_vwRead (slot : Nat) (row a b : Int) (s : State) :
    exec (.vwRead slot row a b) s = withSlot slot s
      (orRaise (checkSupported (s.chain slot) .fwd) s (finish (fwd s (s.chain slot) row a b) s)) := rfl
theorem exec_vwReadrev (slot : Nat) (row a b : Int) (s : State) :
    exec (.vwReadrev slot row a b) s = withSlot slot s
      (orRaise (checkSupported (s.chain slot) .rev) s (finish (rev s (s.chain slot) row a b) s)) := rfl

theorem checkSupported_of_supported {c : List Stage} {dir : Dir} (h : supported c dir = true) :
    checkSupported c dir = none := if_pos h

theorem checkSupported_of_not_supported {c : List Stage} {dir : Dir} (h : supported c dir = false) :
    checkSupported c dir = some .unsupported := if_neg (ne_true_of_eq_false h)

/-- The columns `a .. b-1` from the last down to the first. -/
theorem intRange_reverse (a b : Int) :
    (intRange a b).reverse = (List.range (b - a).toNat).map (fun (k : Nat) => b - 1 - (k : Int)) := by
  apply List.ext_getElem
  · rw [List.length_reverse, intRange_length, List.length_map, List.length_range]
  · intro k hleft hright
    simp only [List.length_map, List.length_range] at hright
    simp only [intRange, List.getElem_reverse, List.getElem_map, List.getElem_range, List.length_map, List.length_range]
    omega

/-! ### Operands that name no slot or device -/

theorem withSlot_of_ge {slot : Nat} {s : State} (k : Exec) (h : s.par.viewSlots ≤ slot) :
    withSlot slot s k = .next (s.respond .badUnit []) := if_neg (Nat.not_lt.mpr h)

theorem withDev_of_gt {u : Nat} (s : State) (k : Dev → Exec) (h : 1 < u) :
    withDev u s k = .next (s.respond .badUnit []) := by
  rw [withDev, (devOf_eq_none u).mpr h, raise]

theorem exec_of_view_unit {i : Instr} {s : State} {slot : Nat} (operand : viewSlotOf i = some slot)
    (h : s.par.viewSlots ≤ slot) : exec i s = .next (s.respond .badUnit []) := by
  cases i <;> cases operand
  all_goals exact withSlot_of_ge _ h

/-- A window write to no device consumes its payload all the same. -/
theorem windowWrite_of_unit {u count : Nat} {s : State} (base : Byte) (r : Nat) (h : 1 < u)
    (ready : count ≤ s.payIn.length) :
    windowWrite base u r count s = .next ((Exceptions.payloadTaken count s).respond .badUnit []) := by
  rw [windowWrite, withPayload_ready _ _ _ ready]
  exact withDev_of_gt _ _ h

theorem exec_of_driver_unit {i : Instr} {s : State} {u : Nat} (operand : driverUnitOf i = some u) (h : 1 < u)
    (ready : commandPayload s i ≤ s.payIn.length) :
    exec i s = .next ((Exceptions.payloadTaken (commandPayload s i) s).respond .badUnit []) := by
  cases i <;> cases operand
  case drvM1rows r count => exact windowWrite_of_unit regMatrix1 r h ready
  case drvM2rows r count => exact windowWrite_of_unit regMatrix2 r h ready
  all_goals exact withDev_of_gt s _ h

theorem exec_tgtRender_of_unit {u slot : Nat} {s : State} (half : Half8x8) (h : 1 < u ∨ s.par.viewSlots ≤ slot) :
    exec (.tgtRender u half slot) s = .next (s.respond .badUnit []) := by
  rw [Screen.exec_tgtRender]
  cases unit : devOf u with
  | none => exact withDev_of_gt s _ ((devOf_eq_none u).mp unit)
  | some d =>
    have named : ¬ 1 < u := fun above => by simp [(devOf_eq_none u).mpr above] at unit
    rw [withDev_some _ _ _ _ unit, withSlot_of_ge _ (h.resolve_left named)]

/-! ### A canvas without live pixels -/

theorem canvasByte_of_live {s : State} {r j : Int} (h : s.liveRow r ∧ s.liveByte j) : s.canvasByte r j = s.memRead r j :=
  if_pos h

theorem canvasByte_of_not_live {s : State} {r j : Int} (h : ¬ (s.liveRow r ∧ s.liveByte j)) :
    s.canvasByte r j = 0x00 := if_neg h

theorem not_live_of_empty {s : State} (h : s.width.toNat = 0 ∨ s.height.toNat = 0) (r j : Int) :
    ¬ (s.liveRow r ∧ s.liveByte j) := by
  simp only [State.liveRow, State.liveByte, State.rowLen, ceil8]
  omega

/-- Stages move, mirror and turn bytes, and 0x00 stays 0x00. -/
theorem point_of_blank {s : State} (blank : ∀ r j, s.canvasByte r j = 0x00) (c : List Stage) :
    ∀ r j, point s c r j = 0x00 := by
  induction c using List.reverseRecOn with
  | nil => exact blank
  | append_singleton c g ih =>
    intro r j
    cases g with
    | flip => rw [point_flip, ih]; rfl
    | offset dx dy => rw [point_offset, ih]
    | rot90 =>
      apply BitVec.eq_of_getLsbD_eq
      intro k hk
      rw [Views.getLsbD_point_rot90 s c r j hk, ih]
      exact BitVec.getLsbD_zero.trans BitVec.getLsbD_zero.symm

/-! ### The two halves of the Screen (43_target_screen.md R192, R197) -/

theorem pull_getElem? {s : State} {c : List Stage} (sup : supported c .fwd = true) {row : Nat} (h : row < 8) :
    (pull s c)[row]? = some (point s c (row : Int) 0) := by
  rw [Screen.pull_eq_point sup, List.getElem?_map, List.getElem?_range h, Option.map_some]

theorem point_primChain (s : State) (k r : Int) : point s (primChain k) r 0 = bitrev8 (s.canvasByte r (k - 1)) := by
  obtain ⟨-, -, mirrored⟩ := Views.viewLawsOfFlipAndOffset s []
  rw [primChain, ← Int.sub_zero (k - 1)]
  exact (mirrored k r 0).2

/-- Bit `y` of a secondary byte is one pixel of canvas row `y`. -/
theorem getLsbD_point_secChain (s : State) (k : Int) {row y : Nat} (hrow : row < 8) (hy : y < 8) :
    (point s (secChain k) (row : Int) 0).getLsbD y = (s.canvasByte (y : Int) k).getLsbD (7 - row) := by
  have offset (r j : Int) : point s [.offset (-k) 0] r j = s.canvasByte r (j + k) := by
    rw [← List.nil_append [Stage.offset (-k) 0], point_offset, point_nil, Int.sub_zero, Int.sub_neg]
  have turned := Views.getLsbD_point_rot90 s [.offset (-k) 0] row 0 hy
  rw [offset, show 8 * 0 + (y : Int) = y by omega, show (row : Int) / 8 + k = k by omega,
    show ((row : Int) % 8).toNat = row by omega] at turned
  exact turned

/-! ### The obligations -/

/-- Settles O37: a supported chain's bytes in increasing column, or UNSUPPORTED. -/
theorem vwReadResult : Obligations.VwReadResult := by
  intro s slot row a b named
  rw [exec_vwRead, Views.withSlot_of_lt _ named]
  refine ⟨fun sup => ?_, fun sup => ?_⟩
  · rw [checkSupported_of_supported sup, orRaise_none, finish, Views.fwd_eq_point sup, intRange, List.map_map]
    rfl
  · rw [checkSupported_of_not_supported sup, orRaise_some, raise]

/-- Settles O38: a supported chain's bytes reversed in decreasing column, or UNSUPPORTED. -/
theorem vwReadrevResult : Obligations.VwReadrevResult := by
  intro s slot row a b named
  rw [exec_vwReadrev, Views.withSlot_of_lt _ named]
  refine ⟨fun sup => ?_, fun sup => ?_⟩
  · rw [checkSupported_of_supported sup, orRaise_none, finish, Views.rev_eq_point sup, intRange_reverse, List.map_map]
    rfl
  · rw [checkSupported_of_not_supported sup, orRaise_some, raise]

/-- Settles O40: the unit check comes after the payload and before everything else. -/
theorem badUnitRefusals : Obligations.BadUnitRefusals := by
  intro s i
  refine ⟨fun slot operand h => exec_of_view_unit operand h, fun u operand h ready => ?_, ?_⟩
  · exact exec_of_driver_unit operand h ready
  · rintro u half slot rfl h
    exact exec_tgtRender_of_unit half h

/-- Settles O44: no canvas byte is live, and every stage keeps 0x00. -/
theorem emptyCanvasReadsZeroThroughEveryChain : Obligations.EmptyCanvasReadsZeroThroughEveryChain :=
  fun _ c r j empty => point_of_blank (fun r j => canvasByte_of_not_live (not_live_of_empty empty r j)) c r j

/-- Settles O57: the two chains' pointwise bytes at column 0; a live pixel's byte is live, and a byte outside the live region
is 0x00. -/
theorem whatEachHalfShows : Obligations.WhatEachHalfShows := by
  intro s k row y hrow hy
  refine ⟨by rw [pull_getElem? rfl hrow, point_primChain], _, pull_getElem? rfl hrow, ?_, ?_, ?_⟩
  · intro column live
    have same_byte : (8 * k + (row : Int)) / 8 = k := by omega
    have same_bit : ((8 * k + (row : Int)) % 8).toNat = row := by omega
    have byte := Canvas.liveByte_of_livePixel column
    rw [same_byte] at byte
    rw [getLsbD_point_secChain s k hrow hy, canvasByte_of_live ⟨live, byte⟩, same_byte, same_bit]
  · intro outside
    rw [getLsbD_point_secChain s k hrow hy, canvasByte_of_not_live outside, BitVec.ofNat_eq_ofNat, BitVec.getLsbD_zero]
  · exact getLsbD_point_secChain s k hrow hy

end Sys2Proof.Chains

/-! SCR.RENDER's recovery (43_target_screen.md R193 to R195, R198), and the commands that wait for a bus write that is never
answered (60_exceptions.md R216). -/

namespace Sys2Proof.Recovery

open Sys2Proof.Machine

/-! ### The flag and the frames of one device's part -/

theorem isErr_eq_false_iff (a : BusAnswer) : isErr a = false ↔ a = .ok := by
  cases a <;> simp [isErr]

/-- However a device's part ends, its flag tells whether one of its writes was answered `err`. -/
theorem flag_of_deviceTrace {s : State} {d : Dev} {ws : List BusWrite} {flag : Bool} {cache : Driver}
    (h : DeviceTrace s d ws flag cache) : flag = ws.any (fun w => isErr w.answer) := by
  obtain ⟨-, ⟨-, -, flagEq, -⟩ | ⟨-, k, -, -, errors, flagEq, -⟩ | ⟨-, -, noError, flagEq, -⟩⟩ := h
  · exact flagEq
  · have failed : (ws.map (fun w => isErr w.answer)).any id = true := by rw [errors]; simp
    rw [flagEq, ← failed, List.any_map]
    rfl
  · calc flag
      _ = (ws.drop 3).any (fun w => isErr w.answer) := flagEq
      _ = (ws.take 3 ++ ws.drop 3).any (fun w => isErr w.answer) := by rw [List.any_append, noError, Bool.false_or]
      _ = ws.any (fun w => isErr w.answer) := by rw [List.take_append_drop]

theorem flag_eq_false_iff {s : State} {d : Dev} {ws : List BusWrite} {flag : Bool} {cache : Driver}
    (h : DeviceTrace s d ws flag cache) : flag = false ↔ ∀ w ∈ ws, w.answer = .ok := by
  rw [flag_of_deviceTrace h, List.any_eq_false]
  exact forall₂_congr fun w _ => by rw [Bool.not_eq_true, isErr_eq_false_iff]

/-- The frames of a device's part when nothing fails: the reinit sequence if its flag was set, then the render. -/
def fullFrames (s : State) (d : Dev) : List (List Byte) :=
  (if pick s.needsReinit d then reinitFrames (pick s.drv d) else []) ++ renderFrames s d

theorem frames_of_deviceTrace_ok {s : State} {d : Dev} {ws : List BusWrite} {cache : Driver}
    (h : DeviceTrace s d ws false cache) : ws.map BusWrite.frame = fullFrames s d := by
  obtain ⟨-, ⟨clear, frames, -⟩ | ⟨-, k, -, -, -, stays, -⟩ | ⟨flagged, frames, -⟩⟩ := h
  · rw [frames, fullFrames, clear]
    rfl
  · cases stays
  · rw [frames, fullFrames, if_pos flagged]

/-- The address and frame of each write of a device's part. -/
theorem sent_of_deviceTrace_ok {s : State} {d : Dev} {ws : List BusWrite} {cache : Driver}
    (h : DeviceTrace s d ws false cache) :
    ws.map (fun w => (w.addr, w.frame)) = (fullFrames s d).map (fun f => (pick s.par.devAddr d, f)) := by
  rw [← frames_of_deviceTrace_ok h, List.map_map]
  exact List.map_congr_left fun w hw => by rw [h.1 w hw]; rfl

/-! ### Answers given in advance -/

/-- When the next answers are all `ok` and no more writes are made than there are answers, every write was answered `ok`. -/
theorem answers_ok {s t : State} {ws : List BusWrite} {m : Nat} {rest : List BusAnswer}
    (inOrder : Commands.WritesInOrder s t ws) (answers : s.busIn = List.replicate m .ok ++ rest) (few : ws.length ≤ m) :
    ∀ w ∈ ws, w.answer = .ok := by
  obtain ⟨-, -, -, order⟩ := inOrder
  have enough : (ws.map BusWrite.answer).length ≤ s.busIn.length := by
    rw [List.length_map, answers, List.length_append, List.length_replicate]
    omega
  have all_ok : ws.map BusWrite.answer = List.replicate ws.length .ok := by
    rw [← List.take_of_length_le enough, order, answers, List.take_append_of_le_length (by simpa using few),
      List.take_replicate, Nat.min_eq_left few]
  intro w hw
  exact List.eq_of_mem_replicate (all_ok ▸ List.mem_map_of_mem hw)

/-! ### The obligations -/

/-- Settles O54: each device's part leaves its flag as the OR of its errors. -/
theorem screenFlagTellsWhetherAllWritesWereAnsweredOk : Obligations.ScreenFlagTellsWhetherAllWritesWereAnsweredOk := by
  intro s answered
  obtain ⟨t, ws0, ws1, answers, -, -, bus, trace0, trace1, -⟩ :=
    Screen.scrRenderFollowsTheDeviceSequences s answered
  exact ⟨t, ws0, ws1, answers, bus, trace0.1, trace1.1, flag_eq_false_iff trace0, flag_eq_false_iff trace1⟩

/-- Settles O55: at most twelve writes are made, so each is answered `ok`, and neither device's part fails. -/
theorem screenHealsWhenTheBusAnswersOk : Obligations.ScreenHealsWhenTheBusAnswersOk := by
  refine ⟨?_, fun _ d => Invariant.pick_pair true d⟩
  intro s rest answered given
  obtain ⟨t, ws0, ws1, answers, -, -, bus, trace0, trace1, -, few, -⟩ :=
    Screen.scrRenderFollowsTheDeviceSequences s answered
  obtain ⟨-, ws, inOrder⟩ := Commands.busRun_of_exec answers
  have same : ws = ws0 ++ ws1 := by
    have := inOrder.1
    rw [bus, List.append_assoc] at this
    exact (List.append_cancel_left this).symm
  subst same
  have ok := answers_ok inOrder given few
  have clear0 := (flag_eq_false_iff trace0).mpr fun w hw => ok w (List.mem_append_left _ hw)
  have clear1 := (flag_eq_false_iff trace1).mpr fun w hw => ok w (List.mem_append_right _ hw)
  rw [clear0] at trace0
  rw [clear1] at trace1
  refine ⟨t, answers, fun d => ?_, ?_⟩
  · cases d
    · exact clear0
    · exact clear1
  · rw [bus, List.append_assoc, List.drop_left, List.map_append, sent_of_deviceTrace_ok trace0,
      sent_of_deviceTrace_ok trace1]
    simp [fullFrames]

end Sys2Proof.Recovery

/-! Commands that finish or wait for the bus (60_exceptions.md R216; 70_reset_and_hazards.md R248): every command does what it
does with every write answered, settled by the write that is never answered. -/

namespace Sys2Proof.Stalls

open Sys2Proof.Machine

/-- The same state with every bus write answered. -/
def unstalled (s : State) : State := { s with busStall := none }

/-- A command's answer with every write answered, settled by the write that `s` leaves unanswered. -/
def settled (s : State) : Exec → Exec
  | .next t => settle s { t with busStall := s.busStall }
  | .fault f => .fault f
  | .refused r => .refused r

/-! ### The shared operations -/

/-- A command that made no write settles. -/
theorem settled_next_of_silent {s t : State} (silent : t.busOut = s.busOut) (stall : t.busStall = s.busStall) :
    settled s (.next (unstalled t)) = .next t := by
  have same : { unstalled t with busStall := s.busStall } = t := by rw [← stall]; rfl
  rw [settled, same]
  exact settle_answered s t fun k _ => by rw [silent]; exact Nat.lt_or_ge k _

theorem finish_eq_settled {s t : State} (data : List Byte) (silent : t.busOut = s.busOut)
    (stall : t.busStall = s.busStall) : finish data t = settled s (finish data (unstalled t)) :=
  (settled_next_of_silent (t := t.respond .ok data) silent stall).symm

theorem raise_eq_settled (c : Status) (s : State) : raise c s = settled s (raise c (unstalled s)) :=
  (settled_next_of_silent (t := s.respond c []) rfl rfl).symm

theorem orRaise_eq_settled {s : State} {k k' : Exec} (c : Option Status) (rest : k = settled s k') :
    orRaise c s k = settled s (orRaise c (unstalled s) k') := by
  cases c with
  | none => exact rest
  | some st => exact raise_eq_settled st s

theorem withDev_eq_settled {s : State} {u : Nat} {k k' : Dev → Exec} (rest : ∀ d, k d = settled s (k' d)) :
    withDev u s k = settled s (withDev u (unstalled s) k') := by
  unfold withDev
  cases devOf u with
  | none => exact raise_eq_settled .badUnit s
  | some d => exact rest d

theorem withSlot_eq_settled {s : State} {slot : Nat} {k k' : Exec} (rest : k = settled s k') :
    withSlot slot s k = settled s (withSlot slot (unstalled s) k') := by
  by_cases named : slot < s.par.viewSlots
  · rw [Views.withSlot_of_lt k named, Views.withSlot_of_lt (s := unstalled s) k' named, rest]
  · rw [Chains.withSlot_of_ge k (Nat.not_lt.mp named), Chains.withSlot_of_ge (s := unstalled s) k' (Nat.not_lt.mp named)]
    exact raise_eq_settled .badUnit s

theorem settled_payloadTaken (len : Nat) (s : State) (x : Exec) :
    settled (Exceptions.payloadTaken len s) x = settled s x := by
  cases x <;> rfl

theorem withPayload_eq_settled {s : State} {len : Nat} {k k' : List Byte → State → Exec}
    (rest : ∀ p, k p (Exceptions.payloadTaken len s) =
      settled (Exceptions.payloadTaken len s) (k' p (unstalled (Exceptions.payloadTaken len s)))) :
    withPayload len s k = settled s (withPayload len (unstalled s) k') := by
  obtain short | ready := Nat.lt_or_ge s.payIn.length len
  · rw [Exceptions.withPayload_short k short, Exceptions.withPayload_short (s := unstalled s) k' short]
    rfl
  · rw [withPayload_ready len s k ready, withPayload_ready len (unstalled s) k' ready, ← settled_payloadTaken len s]
    exact rest _

theorem drvWrite_eq_settled {s : State} {d : Dev} {frame : List Byte} {onOk : State → State}
    (stall : ∀ t, (onOk t).busStall = t.busStall) (commutes : ∀ t, onOk (unstalled t) = unstalled (onOk t)) :
    drvWrite d frame onOk s = settled s (drvWrite d frame onOk (unstalled s)) := by
  have same_answer : (unstalled s).nextAnswer = s.nextAnswer := rfl
  have same_write : (unstalled s).busWrite d frame = unstalled (s.busWrite d frame) := rfl
  have settles (r : State) : settle (unstalled s) r = .next r := rfl
  rw [drvWrite, drvWrite, settles, settled, same_answer, same_write]
  cases s.nextAnswer with
  | err e => rfl
  | ok =>
    have kept : s.busStall = (onOk (s.busWrite d frame)).busStall := by rw [stall, busWrite_busStall]
    dsimp only
    rw [commutes, kept]
    rfl

/-! ### What reads and writes the canvas sees no bus -/

theorem fwd_unstalled (s : State) (c : List Stage) (r a b : Int) : fwd (unstalled s) c r a b = fwd s c r a b :=
  readOuter_congr s (unstalled s) (fun _ _ => rfl) c.reverse .fwd r a b

theorem rev_unstalled (s : State) (c : List Stage) (r a b : Int) : rev (unstalled s) c r a b = rev s c r a b :=
  readOuter_congr s (unstalled s) (fun _ _ => rfl) c.reverse .rev r a b

theorem pull_unstalled (s : State) (c : List Stage) : pull (unstalled s) c = pull s c :=
  pull_congr s (unstalled s) (fun _ _ => rfl) c

theorem writeBytes_unstalled (s : State) (y j : Int) (p : List Byte) :
    (unstalled s).writeBytes y j p = unstalled (s.writeBytes y j p) := by
  induction p generalizing s j with
  | nil => rfl
  | cons v rest ih => exact ih (s.memWrite y j v) (j + 1)

theorem rendered_unstalled (s : State) : Screen.rendered (unstalled s) = unstalled (Screen.rendered s) := by
  have each (d : Dev) (t : State) : renderDev d (unstalled t) = unstalled (renderDev d t) := renderDev_busStall d t none
  rw [Screen.rendered, each, each, ← Screen.rendered]

/-! ### Every command -/

theorem cvRoww_eq_settled (y : Int) (s : State) : exec (.cvRoww y) s = settled s (exec (.cvRoww y) (unstalled s)) := by
  rw [Canvas.exec_cvRoww, Canvas.exec_cvRoww]
  refine withPayload_eq_settled fun p => orRaise_eq_settled _ ?_
  rw [writeBytes_unstalled]
  exact finish_eq_settled [] (writeBytes_busOut ..) (writeBytes_busStall ..)

theorem cvDraw_eq_settled (x y : Int) (alpha : Byte) (s : State) :
    exec (.cvDraw x y alpha) s = settled s (exec (.cvDraw x y alpha) (unstalled s)) := by
  by_cases live : s.livePixel x ∧ s.liveRow y
  · obtain ⟨column, row⟩ := live
    cases threshold : s.threshold with
    | none =>
      rw [Canvas.exec_cvDraw_of_no_threshold alpha column row threshold,
        Canvas.exec_cvDraw_of_no_threshold (s := unstalled s) alpha column row threshold]
      exact finish_eq_settled (t := { s.writePixel x y (Config.freePixel s.draws) with draws := s.draws + 1 }) [] rfl rfl
    | some thr =>
      rw [Canvas.exec_cvDraw_of_threshold alpha column row threshold,
        Canvas.exec_cvDraw_of_threshold (s := unstalled s) alpha column row threshold]
      exact finish_eq_settled (t := s.writePixel x y _) [] rfl rfl
  · rw [Canvas.exec_cvDraw_outside alpha live, Canvas.exec_cvDraw_outside (s := unstalled s) alpha live]
    exact finish_eq_settled (t := s) [] rfl rfl

theorem stageCommand_eq_settled (slot : Nat) (g : Stage) (s : State) :
    exec (stageCommand slot g) s = settled s (exec (stageCommand slot g) (unstalled s)) := by
  rw [Views.exec_stageCommand, Views.exec_stageCommand]
  exact withSlot_eq_settled (orRaise_eq_settled _ (finish_eq_settled _ rfl rfl))

theorem vwRead_eq_settled (slot : Nat) (row a b : Int) (s : State) :
    exec (.vwRead slot row a b) s = settled s (exec (.vwRead slot row a b) (unstalled s)) := by
  rw [Chains.exec_vwRead, Chains.exec_vwRead, fwd_unstalled]
  exact withSlot_eq_settled (orRaise_eq_settled _ (finish_eq_settled _ rfl rfl))

theorem vwReadrev_eq_settled (slot : Nat) (row a b : Int) (s : State) :
    exec (.vwReadrev slot row a b) s = settled s (exec (.vwReadrev slot row a b) (unstalled s)) := by
  rw [Chains.exec_vwReadrev, Chains.exec_vwReadrev, rev_unstalled]
  exact withSlot_eq_settled (orRaise_eq_settled _ (finish_eq_settled _ rfl rfl))

theorem windowWrite_eq_settled (base : Byte) (u r count : Nat) (s : State) :
    windowWrite base u r count s = settled s (windowWrite base u r count (unstalled s)) :=
  withPayload_eq_settled fun _ => withDev_eq_settled fun _ => orRaise_eq_settled _ <|
    drvWrite_eq_settled (fun _ => rfl) (fun _ => rfl)

theorem tgtRender_eq_settled (u slot : Nat) (half : Half8x8) (s : State) :
    exec (.tgtRender u half slot) s = settled s (exec (.tgtRender u half slot) (unstalled s)) := by
  rw [Screen.exec_tgtRender, Screen.exec_tgtRender, pull_unstalled]
  exact withDev_eq_settled fun _ => withSlot_eq_settled <| orRaise_eq_settled _ <|
    drvWrite_eq_settled (fun _ => rfl) (fun _ => rfl)

theorem scrRender_eq_settled (s : State) : exec .scrRender s = settled s (exec .scrRender (unstalled s)) := by
  have settles (r : State) : settle (unstalled s) r = .next r := rfl
  have stall := Commands.rendered_busStall s
  rw [Screen.exec_scrRender, Screen.exec_scrRender, settles, settled, ← Screen.rendered, ← Screen.rendered,
    rendered_unstalled]
  congr 1
  rw [← stall]
  rfl

/-- Every command does what it does with every write answered, settled by the write that is never answered. -/
theorem exec_eq_settled (i : Instr) (s : State) : exec i s = settled s (exec i (unstalled s)) := by
  cases i
  case cvNew => exact orRaise_eq_settled _ (finish_eq_settled _ rfl rfl)
  case cvWidth => exact finish_eq_settled _ rfl rfl
  case cvHeight => exact finish_eq_settled _ rfl rfl
  case cvCapw => exact finish_eq_settled _ rfl rfl
  case cvCaph => exact finish_eq_settled _ rfl rfl
  case cvRow => exact orRaise_eq_settled _ (finish_eq_settled _ rfl rfl)
  case cvRoww y => exact cvRoww_eq_settled y s
  case cvByte => exact orRaise_eq_settled _ (finish_eq_settled _ rfl rfl)
  case cvBytew => exact orRaise_eq_settled _ (finish_eq_settled _ rfl rfl)
  case cvBit => exact orRaise_eq_settled _ (finish_eq_settled _ rfl rfl)
  case cvBitw => exact orRaise_eq_settled _ (finish_eq_settled _ rfl rfl)
  case cvAlpha => exact finish_eq_settled _ rfl rfl
  case cvAlphaw => exact finish_eq_settled _ rfl rfl
  case cvDraw x y alpha => exact cvDraw_eq_settled x y alpha s
  case vwClear => exact withSlot_eq_settled (finish_eq_settled _ rfl rfl)
  case vwFlip slot => exact stageCommand_eq_settled slot .flip s
  case vwOffset slot dx dy => exact stageCommand_eq_settled slot (.offset dx dy) s
  case vwRot90 slot => exact stageCommand_eq_settled slot .rot90 s
  case vwBitslen => exact withSlot_eq_settled (finish_eq_settled _ rfl rfl)
  case vwRead slot row a b => exact vwRead_eq_settled slot row a b s
  case vwReadrev slot row a b => exact vwReadrev_eq_settled slot row a b s
  case bitidx => exact finish_eq_settled _ rfl rfl
  case drvPwm => exact withDev_eq_settled fun _ => drvWrite_eq_settled (fun _ => rfl) (fun _ => rfl)
  case drvM1rows u r count => exact windowWrite_eq_settled regMatrix1 u r count s
  case drvM2rows u r count => exact windowWrite_eq_settled regMatrix2 u r count s
  case drvUpdate => exact withDev_eq_settled fun _ => drvWrite_eq_settled (fun _ => rfl) (fun _ => rfl)
  case drvReset => exact withDev_eq_settled fun _ => drvWrite_eq_settled (fun _ => rfl) (fun _ => rfl)
  case drvModcfg => exact withDev_eq_settled fun _ => drvWrite_eq_settled (fun _ => rfl) (fun _ => rfl)
  case drvModlit => exact withDev_eq_settled fun _ => drvWrite_eq_settled (fun _ => rfl) (fun _ => rfl)
  case drvCfg => exact withDev_eq_settled fun _ => finish_eq_settled _ rfl rfl
  case drvLit => exact withDev_eq_settled fun _ => finish_eq_settled _ rfl rfl
  case tgtRender u half slot => exact tgtRender_eq_settled u slot half s
  case scrRender => exact scrRender_eq_settled s
  case scrReinit => exact finish_eq_settled _ rfl rfl

/-! ### The obligations -/

/-- Settles O58: the next state with every write answered is settled, which looks at the writes made and at nothing else. -/
theorem busCommandsFinishOrWait : Obligations.BusCommandsFinishOrWait := by
  intro i s t answers
  have settles : exec i s = settle s { t with busStall := s.busStall } := by
    rw [exec_eq_settled, show exec i (unstalled s) = .next t from answers, settled]
  rw [settles]
  refine ⟨fun answered => settle_answered _ _ fun k stall => ?_, fun unanswered => ?_⟩
  · have := answered k stall
    dsimp only
    omega
  · obtain ⟨k, stall, made⟩ : ∃ k ∈ s.busStall, ¬ (k < s.busOut.length ∨
        s.busOut.length + (t.busOut.length - s.busOut.length) ≤ k) := by
      simpa only [State.answeredFor, not_forall, exists_prop] using unanswered
    refine settle_stalled _ _ k stall (by omega) ?_
    dsimp only
    omega

/-- Settles O8: each command is the one bus write, or SCR.RENDER with at least two. -/
theorem unansweredWriteLeavesTheBlockWaiting : Obligations.UnansweredWriteLeavesTheBlockWaiting := by
  intro s u r slot d v mask half unit
  refine ⟨fun stall => ⟨?_, ?_, ?_, ?_, ?_, ?_, ?_⟩, fun stall => ?_⟩
  · rw [Drivers.exec_drvPwm, withDev_some _ _ _ _ unit, drvWrite_stalled d _ id s stall fun _ => rfl]
  · rw [Drivers.exec_drvUpdate, withDev_some _ _ _ _ unit, drvWrite_stalled d _ id s stall fun _ => rfl]
  · rw [Drivers.exec_drvReset, withDev_some _ _ _ _ unit, drvWrite_stalled d _ id s stall fun _ => rfl]
  · rw [Drivers.exec_drvModcfg, withDev_some _ _ _ _ unit]
    exact drvWrite_stalled d _ (State.setCfg · d _) s stall (setCfg_busOut · d _)
  · rw [Drivers.exec_drvModlit, withDev_some _ _ _ _ unit]
    exact drvWrite_stalled d _ (State.setLit · d _) s stall (setLit_busOut · d _)
  · intro p q payload row fits
    have waits (base : Byte) : windowWrite base u r p.length s = .fault .waitBus := by
      rw [Drivers.windowWrite_of_fits base unit payload row fits]
      exact drvWrite_stalled d _ id _ stall fun _ => rfl
    exact ⟨waits regMatrix1, waits regMatrix2⟩
  · intro named sup
    rw [Screen.exec_tgtRender_of_supported half unit named sup, drvWrite_stalled d _ id s stall fun _ => rfl]
  · obtain ⟨ws0, ws1, bus, trace0, trace1, -⟩ := Screen.rendered_traces s
    obtain ⟨some0, -⟩ := Screen.length_bounds_of_deviceTrace trace0
    obtain ⟨some1, -⟩ := Screen.length_bounds_of_deviceTrace trace1
    have two : s.busOut.length + 2 ≤ (Screen.rendered s).busOut.length := by
      rw [bus, List.length_append, List.length_append]
      omega
    rw [Screen.exec_scrRender]
    obtain first | second := stall
    · exact settle_stalled _ _ _ first le_rfl (Nat.lt_of_succ_lt two)
    · exact settle_stalled _ _ _ second (Nat.le_succ _) two

end Sys2Proof.Stalls
